-- ==== Sys2Proof/Word.lean ====
section
/-! DEFINITION. The words of the machine (R9, R70, R72): bytes, 16-bit instruction words, 12-bit
addresses, register and key indices. Every quantity is unsigned (R9); no sign extension exists. -/

namespace Sys2Proof

/-- An 8-bit unsigned value: a register, a timer or a memory byte (R20, R30, R32). -/
abbrev Byte := BitVec 8

/-- A 16-bit instruction word (R70). -/
abbrev Word := BitVec 16

/-- A 12-bit address: `PC`, `I`, a stack entry, an `NNN` field (R23, R24, R27, R72). -/
abbrev Addr := BitVec 12

/-- A register index 0..15: the `X` or `Y` field (R20, R72). -/
abbrev Reg := Fin 16

/-- A key index 0x0..0xF (R31). -/
abbrev Key := Fin 16

/-- The index of VF, the flag register, which is `V[15]` (R22). -/
abbrev VF : Reg := 15

end Sys2Proof
end

