-- ==== Sys2Proof/Syntax.lean ====
section
/-! DEFINITION. The 34 instructions of the opcode map (R75), one constructor per row, in the table's
order. An operand has exactly the width of its field (R72), so every term of `Instr` is the meaning
of some instruction word, and no instruction can be written that is not encodable. -/

namespace Sys2Proof

/-- An instruction: a row of R75 with its operand fields. `x` and `y` are register indices, `nn` and
`n` immediates, `nnn` an absolute byte address (R72). -/
inductive Instr where
  /-- `CLS` (00E0). -/
  | cls
  /-- `RET` (00EE). -/
  | ret
  /-- `JP NNN` (1NNN). -/
  | jp (nnn : Addr)
  /-- `CALL NNN` (2NNN). -/
  | call (nnn : Addr)
  /-- `SE Vx, NN` (3XNN). -/
  | seImm (x : Reg) (nn : Byte)
  /-- `SNE Vx, NN` (4XNN). -/
  | sneImm (x : Reg) (nn : Byte)
  /-- `SE Vx, Vy` (5XY0). -/
  | seReg (x y : Reg)
  /-- `LD Vx, NN` (6XNN). -/
  | ldImm (x : Reg) (nn : Byte)
  /-- `ADD Vx, NN` (7XNN). -/
  | addImm (x : Reg) (nn : Byte)
  /-- `LD Vx, Vy` (8XY0). -/
  | ldReg (x y : Reg)
  /-- `OR Vx, Vy` (8XY1). -/
  | or (x y : Reg)
  /-- `AND Vx, Vy` (8XY2). -/
  | and (x y : Reg)
  /-- `XOR Vx, Vy` (8XY3). -/
  | xor (x y : Reg)
  /-- `ADD Vx, Vy` (8XY4). -/
  | addReg (x y : Reg)
  /-- `SUB Vx, Vy` (8XY5). -/
  | sub (x y : Reg)
  /-- `SHR Vx` (8XY6): `y` is encoded and has no effect (R84, R120). -/
  | shr (x y : Reg)
  /-- `SUBN Vx, Vy` (8XY7). -/
  | subn (x y : Reg)
  /-- `SHL Vx` (8XYE): `y` is encoded and has no effect (R84, R123). -/
  | shl (x y : Reg)
  /-- `SNE Vx, Vy` (9XY0). -/
  | sneReg (x y : Reg)
  /-- `LD I, NNN` (ANNN). -/
  | ldI (nnn : Addr)
  /-- `JP V0, NNN` (BNNN). -/
  | jpV0 (nnn : Addr)
  /-- `RND Vx, NN` (CXNN). -/
  | rnd (x : Reg) (nn : Byte)
  /-- `DRW Vx, Vy, N` (DXYN). -/
  | drw (x y : Reg) (n : BitVec 4)
  /-- `SKP Vx` (EX9E). -/
  | skp (x : Reg)
  /-- `SKNP Vx` (EXA1). -/
  | sknp (x : Reg)
  /-- `LD Vx, DT` (FX07). -/
  | ldVxDt (x : Reg)
  /-- `LD Vx, K` (FX0A). -/
  | ldVxK (x : Reg)
  /-- `LD DT, Vx` (FX15). -/
  | ldDtVx (x : Reg)
  /-- `LD ST, Vx` (FX18). -/
  | ldStVx (x : Reg)
  /-- `ADD I, Vx` (FX1E). -/
  | addI (x : Reg)
  /-- `LD F, Vx` (FX29). -/
  | ldF (x : Reg)
  /-- `LD B, Vx` (FX33). -/
  | ldB (x : Reg)
  /-- `LD [I], Vx` (FX55): `x` is the index of the last register stored. -/
  | dump (x : Reg)
  /-- `LD Vx, [I]` (FX65): `x` is the index of the last register loaded. -/
  | load (x : Reg)
  deriving DecidableEq, Repr

end Sys2Proof
end

