-- ==== Sys2Proof/Decode.lean ====
section
/-! DEFINITION. The decoder (R70 to R84), a pure function of the 16-bit word, total on all 65536
words; after it the encoder, written from the patterns of R75, and the table of R75 as data.
The bit patterns of 30 rows are the spec's own adoption of the standard CHIP-8 assignment
(92_eei_decisions.md D32; assumption 12). -/

namespace Sys2Proof

/-- The five operand fields, extracted unconditionally from fixed bit positions (R72, R74). -/
structure Fields where
  x : Reg
  y : Reg
  n : BitVec 4
  nn : Byte
  nnn : Addr
  deriving DecidableEq, Repr

/-- `X` = bits 11:8, `Y` = bits 7:4, `N` = bits 3:0, `NN` = bits 7:0, `NNN` = bits 11:0 (R72). -/
def fieldsOf (w : Word) : Fields where
  x := (w.extractLsb' 8 4).toFin
  y := (w.extractLsb' 4 4).toFin
  n := w.extractLsb' 0 4
  nn := w.extractLsb' 0 8
  nnn := w.extractLsb' 0 12

/-- `n3`, the leading nibble: bits 15:12 (R71). -/
def leadingNibble (w : Word) : Nat := (w.extractLsb' 12 4).toNat

/-- What the decoder answers (R74): an instruction, a decode miss (R81), or a word whose leading
nibble has no family (R83), which cannot occur with the map of R75. -/
inductive Decoded where
  | instr (i : Instr)
  | miss
  | noFamily
  deriving DecidableEq, Repr

/-- Family 8 is told apart by the lowest nibble (R77); 8, 9, A, B, C, D and F are decode misses. -/
def decodeFamily8 (f : Fields) : Decoded :=
  match f.n.toNat with
  | 0x0 => .instr (.ldReg f.x f.y)
  | 0x1 => .instr (.or f.x f.y)
  | 0x2 => .instr (.and f.x f.y)
  | 0x3 => .instr (.xor f.x f.y)
  | 0x4 => .instr (.addReg f.x f.y)
  | 0x5 => .instr (.sub f.x f.y)
  | 0x6 => .instr (.shr f.x f.y)
  | 0x7 => .instr (.subn f.x f.y)
  | 0xE => .instr (.shl f.x f.y)
  | _ => .miss

/-- Family E is told apart by the low byte (R77). -/
def decodeFamilyE (f : Fields) : Decoded :=
  match f.nn.toNat with
  | 0x9E => .instr (.skp f.x)
  | 0xA1 => .instr (.sknp f.x)
  | _ => .miss

/-- Family F is told apart by the low byte (R77). -/
def decodeFamilyF (f : Fields) : Decoded :=
  match f.nn.toNat with
  | 0x07 => .instr (.ldVxDt f.x)
  | 0x0A => .instr (.ldVxK f.x)
  | 0x15 => .instr (.ldDtVx f.x)
  | 0x18 => .instr (.ldStVx f.x)
  | 0x1E => .instr (.addI f.x)
  | 0x29 => .instr (.ldF f.x)
  | 0x33 => .instr (.ldB f.x)
  | 0x55 => .instr (.dump f.x)
  | 0x65 => .instr (.load f.x)
  | _ => .miss

/-- `Decode(w)` (R77). The last arm is the fatal decode error of R83; every one of the 16 leading
nibbles has a family, so no word reaches it. -/
def decode (w : Word) : Decoded :=
  let f := fieldsOf w
  match leadingNibble w with
  | 0x0 => if w = 0x00E0 then .instr .cls else if w = 0x00EE then .instr .ret else .miss
  | 0x1 => .instr (.jp f.nnn)
  | 0x2 => .instr (.call f.nnn)
  | 0x3 => .instr (.seImm f.x f.nn)
  | 0x4 => .instr (.sneImm f.x f.nn)
  | 0x5 => if f.n = 0 then .instr (.seReg f.x f.y) else .miss
  | 0x6 => .instr (.ldImm f.x f.nn)
  | 0x7 => .instr (.addImm f.x f.nn)
  | 0x8 => decodeFamily8 f
  | 0x9 => if f.n = 0 then .instr (.sneReg f.x f.y) else .miss
  | 0xA => .instr (.ldI f.nnn)
  | 0xB => .instr (.jpV0 f.nnn)
  | 0xC => .instr (.rnd f.x f.nn)
  | 0xD => .instr (.drw f.x f.y f.n)
  | 0xE => decodeFamilyE f
  | 0xF => decodeFamilyF f
  | _ => .noFamily

/-- The word of two bytes, the first one high (R52, R54, R70). -/
def wordOf (hi lo : Byte) : Word := hi ++ lo

/-- Why the decoder rejects bytes: fewer than two of them, a decode miss (R81), or a leading nibble
with no family (R83). -/
inductive Reject where
  | truncated
  | decodeMiss (w : Word)
  | noFamily (w : Word)
  deriving DecidableEq, Repr

/-- The decoder on bytes as they lie in memory: one instruction and the bytes after it, or the reason
there is none. Every instruction is one big-endian word (R70). -/
def decodeBytes : List Byte → Except Reject (Instr × List Byte)
  | hi :: lo :: rest =>
    match decode (wordOf hi lo) with
    | .instr i => .ok (i, rest)
    | .miss => .error (.decodeMiss (wordOf hi lo))
    | .noFamily => .error (.noFamily (wordOf hi lo))
  | _ => .error .truncated

/-- The high and the low byte of a word, as memory holds them (R54, R86). -/
def bytesOf (w : Word) : List Byte := [w.extractLsb' 8 8, w.extractLsb' 0 8]

/-- The word that the opcode table's numbering `w` of an `nbits`-bit row stands for: bits above
`nbits` are 0, and every instruction is one 16-bit word (R70). -/
def tableWord (nbits w : Nat) : Word := BitVec.ofNat 16 (w % 2 ^ nbits)

/-- The instruction the decoder reads from the bytes of a table word. -/
def decodeTableWord (nbits w : Nat) : Option Instr :=
  match decodeBytes (bytesOf (tableWord nbits w)) with
  | .ok (i, _) => some i
  | .error _ => none

/-! ### The encoder -/

/-- Format `NNN` (R73). -/
def encodeNNN (op : BitVec 4) (nnn : Addr) : Word := op ++ nnn

/-- Format `XNN` (R73). -/
def encodeXNN (op : BitVec 4) (x : Reg) (nn : Byte) : Word := op ++ (BitVec.ofFin x : BitVec 4) ++ nn

/-- Formats `XY` and `XYN` (R73): the lowest nibble is `sub` or `N`. -/
def encodeXY (op : BitVec 4) (x y : Reg) (sub : BitVec 4) : Word :=
  op ++ (BitVec.ofFin x : BitVec 4) ++ (BitVec.ofFin y : BitVec 4) ++ sub

/-- The word of an instruction: its pattern with the field nibbles filled in (R75, R86). -/
def encode : Instr → Word
  | .cls => 0x00E0
  | .ret => 0x00EE
  | .jp nnn => encodeNNN 0x1 nnn
  | .call nnn => encodeNNN 0x2 nnn
  | .seImm x nn => encodeXNN 0x3 x nn
  | .sneImm x nn => encodeXNN 0x4 x nn
  | .seReg x y => encodeXY 0x5 x y 0x0
  | .ldImm x nn => encodeXNN 0x6 x nn
  | .addImm x nn => encodeXNN 0x7 x nn
  | .ldReg x y => encodeXY 0x8 x y 0x0
  | .or x y => encodeXY 0x8 x y 0x1
  | .and x y => encodeXY 0x8 x y 0x2
  | .xor x y => encodeXY 0x8 x y 0x3
  | .addReg x y => encodeXY 0x8 x y 0x4
  | .sub x y => encodeXY 0x8 x y 0x5
  | .shr x y => encodeXY 0x8 x y 0x6
  | .subn x y => encodeXY 0x8 x y 0x7
  | .shl x y => encodeXY 0x8 x y 0xE
  | .sneReg x y => encodeXY 0x9 x y 0x0
  | .ldI nnn => encodeNNN 0xA nnn
  | .jpV0 nnn => encodeNNN 0xB nnn
  | .rnd x nn => encodeXNN 0xC x nn
  | .drw x y n => encodeXY 0xD x y n
  | .skp x => encodeXNN 0xE x 0x9E
  | .sknp x => encodeXNN 0xE x 0xA1
  | .ldVxDt x => encodeXNN 0xF x 0x07
  | .ldVxK x => encodeXNN 0xF x 0x0A
  | .ldDtVx x => encodeXNN 0xF x 0x15
  | .ldStVx x => encodeXNN 0xF x 0x18
  | .addI x => encodeXNN 0xF x 0x1E
  | .ldF x => encodeXNN 0xF x 0x29
  | .ldB x => encodeXNN 0xF x 0x33
  | .dump x => encodeXNN 0xF x 0x55
  | .load x => encodeXNN 0xF x 0x65

/-- An instruction as two bytes of memory or of a ROM image (R54, R86). -/
def encodeBytes (i : Instr) : List Byte := bytesOf (encode i)

/-! ### The table of R75 as data -/

/-- A row of R75: the word `w` selects it when `w &&& mask = pattern` (the table's "match"). -/
structure OpRow where
  mask : Word
  pattern : Word
  deriving DecidableEq, Repr

/-- A word selects a row (R75). -/
abbrev OpRow.selects (r : OpRow) (w : Word) : Prop := w &&& r.mask = r.pattern

/-- The mask and match columns of R75. -/
def opcodeRow : Instr → OpRow
  | .cls => ⟨0xFFFF, 0x00E0⟩
  | .ret => ⟨0xFFFF, 0x00EE⟩
  | .jp _ => ⟨0xF000, 0x1000⟩
  | .call _ => ⟨0xF000, 0x2000⟩
  | .seImm _ _ => ⟨0xF000, 0x3000⟩
  | .sneImm _ _ => ⟨0xF000, 0x4000⟩
  | .seReg _ _ => ⟨0xF00F, 0x5000⟩
  | .ldImm _ _ => ⟨0xF000, 0x6000⟩
  | .addImm _ _ => ⟨0xF000, 0x7000⟩
  | .ldReg _ _ => ⟨0xF00F, 0x8000⟩
  | .or _ _ => ⟨0xF00F, 0x8001⟩
  | .and _ _ => ⟨0xF00F, 0x8002⟩
  | .xor _ _ => ⟨0xF00F, 0x8003⟩
  | .addReg _ _ => ⟨0xF00F, 0x8004⟩
  | .sub _ _ => ⟨0xF00F, 0x8005⟩
  | .shr _ _ => ⟨0xF00F, 0x8006⟩
  | .subn _ _ => ⟨0xF00F, 0x8007⟩
  | .shl _ _ => ⟨0xF00F, 0x800E⟩
  | .sneReg _ _ => ⟨0xF00F, 0x9000⟩
  | .ldI _ => ⟨0xF000, 0xA000⟩
  | .jpV0 _ => ⟨0xF000, 0xB000⟩
  | .rnd _ _ => ⟨0xF000, 0xC000⟩
  | .drw _ _ _ => ⟨0xF000, 0xD000⟩
  | .skp _ => ⟨0xF0FF, 0xE09E⟩
  | .sknp _ => ⟨0xF0FF, 0xE0A1⟩
  | .ldVxDt _ => ⟨0xF0FF, 0xF007⟩
  | .ldVxK _ => ⟨0xF0FF, 0xF00A⟩
  | .ldDtVx _ => ⟨0xF0FF, 0xF015⟩
  | .ldStVx _ => ⟨0xF0FF, 0xF018⟩
  | .addI _ => ⟨0xF0FF, 0xF01E⟩
  | .ldF _ => ⟨0xF0FF, 0xF029⟩
  | .ldB _ => ⟨0xF0FF, 0xF033⟩
  | .dump _ => ⟨0xF0FF, 0xF055⟩
  | .load _ => ⟨0xF0FF, 0xF065⟩

/-- The 34 rows of R75, in its order. -/
def opcodeTable : List OpRow :=
  ([.cls, .ret, .jp 0, .call 0, .seImm 0 0, .sneImm 0 0, .seReg 0 0, .ldImm 0 0, .addImm 0 0, .ldReg 0 0,
    .or 0 0, .and 0 0, .xor 0 0, .addReg 0 0, .sub 0 0, .shr 0 0, .subn 0 0, .shl 0 0, .sneReg 0 0, .ldI 0,
    .jpV0 0, .rnd 0 0, .drw 0 0 0, .skp 0, .sknp 0, .ldVxDt 0, .ldVxK 0, .ldDtVx 0, .ldStVx 0, .addI 0,
    .ldF 0, .ldB 0, .dump 0, .load 0] : List Instr).map opcodeRow

end Sys2Proof
end

