-- ==== Sys2Proof/Config.lean ====
section
/-! DEFINITION. The configuration of a core (R8, R36) and its one free input, the random byte (R124).
A configuration is constant for the life of the core; it is carried in `State` as a field that no
event changes, because the machine's one step has no other argument (assumption 2). -/

namespace Sys2Proof

/-- The parameters the model takes as arguments (R8). `TICKS_PER_FRAME` is left out because the core
does not know it (R8, R204): any interleaving of events can be written in `State.inputs`. -/
structure Config where
  /-- `ROM`: the program image that every reset copies to 0x200.. (R8, R65). -/
  rom : List Byte
  /-- `FONT`: the 80 glyph bytes that every reset copies to 0x050..0x09F (R8, R59). -/
  font : List Byte
  /-- `STACK_DEPTH`: the number of stack entries (R8, R28). -/
  stackDepth : Nat
  deriving DecidableEq, Repr

/-- `RndByte()` (R11, R124): the byte the environment supplies at the n-th executed RND. A free value
(assumption 5): it has no body, so nothing can be proved of any draw, and no law relates two draws. -/
opaque Config.rndByte : Nat → Byte

end Sys2Proof
end

