-- ==== Sys2Proof/Machine/Memory.lean ====
section
/-! DEFINITION. `MEM` (R32, R51): 4096 bytes, held as the cells that differ from what reset puts there.
`resetByte` is the one definition of what an unlisted address reads as: the reset contents of R58.
Every operation keeps the one canonical form `Memory.wf`, so equal memories are equal lists. -/

namespace Sys2Proof.Machine

/-- The byte at address `a` after reset (R58, R191): cleared to 0x00, then `FONT`, then `ROM`. -/
def resetByte (c : Config) (a : Nat) : Byte :=
  if 0x200 ≤ a then c.rom.getD (a - 0x200) 0
  else if 0x050 ≤ a ∧ a < 0x0A0 then c.font.getD (a - 0x050) 0
  else 0

/-- Cells by address, for the addresses that do not hold their reset byte. -/
abbrev Memory := List Host.Cell

/-- The byte at `a`; `reset` gives the byte of an unlisted address. -/
def Memory.read (reset : Nat → Byte) : Memory → Nat → Byte
  | [], a => reset a
  | (k, b) :: m, a => if k = a then b else Memory.read reset m a

/-- Puts a cell before the first one with a higher address. -/
def Memory.insert (c : Host.Cell) : Memory → Memory
  | [] => [c]
  | d :: m => if c.1 < d.1 then c :: d :: m else d :: Memory.insert c m

/-- Takes the cells of address `a` away. -/
def Memory.erase (m : Memory) (a : Nat) : Memory := m.filter fun d => d.1 != a

/-- Makes `a` hold `b`; a byte equal to the reset byte is not listed. -/
def Memory.write (reset : Nat → Byte) (m : Memory) (a : Nat) (b : Byte) : Memory :=
  if b = reset a then m.erase a else Memory.insert (a, b) (m.erase a)

/-- The canonical form: addresses strictly rising and inside the address space, no cell equal to the
reset byte. -/
abbrev Memory.wf (reset : Nat → Byte) (m : Memory) : Prop :=
  m.Pairwise (fun c d => c.1 < d.1) ∧ ∀ c ∈ m, c.1 < 4096 ∧ c.2 ≠ reset c.1

end Sys2Proof.Machine
end

