-- ==== Sys2Proof/Machine/State.lean ====
section
/-! DEFINITION. The state of the core (R20 to R39) as plain data, and the state after power-on reset.
The last four fields are the model's own: the constant configuration, the host events not yet
delivered, the number of random bytes drawn, and the diagnostics put out (assumptions 1, 2, 5, 8). -/

namespace Sys2Proof.Machine

/-- The cause of a fatal condition (R161). -/
inductive Cause where
  /-- No fatal condition: `HALT = 0`. -/
  | none
  /-- A leading nibble with no family; cannot occur with the map of R75 (R83). -/
  | decodeFatal
  /-- RET with an empty stack (R162). -/
  | stackUnderflow
  /-- CALL with a full stack (R163). -/
  | stackOverflow
  deriving DecidableEq, Repr

/-- The events the host drives the core with, each atomic (R60, R175). -/
inductive HostEvent where
  /-- "reinitializes to canonical state" (R191). -/
  | reset
  /-- Executes one instruction (R170). -/
  | tick
  /-- Counts both timers down (R177). -/
  | frame
  /-- A press edge of a key (R176). -/
  | keyDown (k : Key)
  /-- A release edge of a key (R176). -/
  | keyUp (k : Key)
  deriving DecidableEq, Repr

/-- A diagnostic event on the `DIAG` output (R181). -/
inductive Diag where
  /-- A word that matches no row, with its fetch address (R81). -/
  | decodeMiss (w : Word) (a : Addr)
  /-- The watchdog reset the core (R179). -/
  | watchdogReset
  deriving DecidableEq, Repr

/-- The state of the core. Beside each field stands the rule that names it. -/
structure State where
  /-- `V[0]` to `V[15]` (R20); VF is `V[15]` (R22). -/
  v : Vector Byte 16
  /-- `I`, 12 bits (R23). -/
  i : Addr
  /-- `PC`, 12 bits (R24). -/
  pc : Addr
  /-- `SP`, the number of occupied stack entries (R27). -/
  sp : Nat
  /-- `S[0 .. STACK_DEPTH-1]`, the stack entries (R27). -/
  stack : List Addr
  /-- `DT`, the delay timer (R30). -/
  dt : Byte
  /-- `ST`, the sound timer (R30). -/
  st : Byte
  /-- `K[0]` to `K[15]`, the key latch (R31). -/
  key : Vector Bool 16
  /-- `MEM` (R32), as the cells that do not hold their reset byte. -/
  mem : Memory
  /-- `FB` (R33): 32 rows, row 0 first, of 64 cells; `true` is ON. -/
  fb : Vector (Vector Bool 64) 32
  /-- `HALT` (R34). -/
  halt : Bool
  /-- `CAUSE` (R34, R161). -/
  cause : Cause
  /-- `WD_LAST`: `PC` at the end of the previous tick (R35). -/
  wdLast : Addr
  /-- `WD_CNT`: the repeat counter (R35), 0..100 between events (R39). -/
  wdCnt : Nat
  /-- The configuration: no event changes it (R36). -/
  cfg : Config
  /-- The host events to be delivered next, first one first; when none is left, every step is a
  `Tick` (R175, R193; assumption 1). -/
  inputs : List HostEvent
  /-- How many random bytes have been drawn (R124; assumption 5). -/
  draws : Nat
  /-- What was put on `DIAG` so far, newest first (R181; assumption 8). -/
  diag : List Diag
  deriving DecidableEq, Repr

/-- Why the machine stops with a fault. No event of this core has such an end: a fatal condition sets
`HALT` and the host goes on delivering events (R164, R171, R177), which is a next state. -/
inductive Fault
  deriving DecidableEq, Repr

/-- Why a step has no meaning. -/
inductive Refusal where
  /-- Raised by an arm of `exec` for an instruction without a meaning; there is none left. Safe. -/
  | notModelled (mnemonic : String)
  /-- Raised by `step` on a configuration that is not well-formed: "refused at configuration and no
  rule of this spec gives such a configuration a meaning" (R8, of a ROM that is too long; assumption 3 adds
the other two checks). Safe. -/
  | configuration
  deriving DecidableEq, Repr

/-- A raster with every cell OFF (R33). -/
def clearRaster : Vector (Vector Bool 64) 32 := Vector.replicate 32 (Vector.replicate 64 false)

/-- The state after power-on and the first `Reset` (R37, R191), with the default font and stack depth
and an empty ROM (R8, R65; assumption 2). All keys are up at power-on (R31). The stack entries have no
reset value (R29): they are 0 (assumption 6). -/
def State.reset : State where
  v := Vector.replicate 16 0
  i := 0x000
  pc := 0x200
  sp := 0
  stack := List.replicate 16 0
  dt := 0
  st := 0
  key := Vector.replicate 16 false
  mem := []
  fb := clearRaster
  halt := false
  cause := .none
  wdLast := 0x000
  wdCnt := 0
  cfg := { rom := [], font := defaultFont, stackDepth := 16 }
  inputs := []
  draws := 0
  diag := []

end Sys2Proof.Machine
end

