-- ==== Sys2Proof/Machine/Ops.lean ====
section
/-! DEFINITION. The named operations every meaning is written with: registers (R10), the memory
primitives (R52, R53), the raster primitives (R140), the stack primitives (R29), `raise Fatal` (this
machine's whole trap entry, R164) and `Reset` (the only way out of it, R169, R191), the random byte
(R124), diagnostics (R181), the fetch (R52, R70) and the output ports (R175). -/

namespace Sys2Proof.Machine

/-! ### Registers (R10, R20) -/

/-- `V[x]`. -/
def State.getV (s : State) (x : Reg) : Byte := s.v[x.val]'x.isLt

/-- `V[x] <- b`. -/
def State.setV (s : State) (x : Reg) (b : Byte) : State := { s with v := s.v.set x.val b x.isLt }

/-- `I <- a`. -/
def State.setI (s : State) (a : Addr) : State := { s with i := a }

/-- `PC <- a`: any address, odd or even (R26). -/
def State.setPc (s : State) (a : Addr) : State := { s with pc := a }

/-- `PC <- (PC + 2) mod 4096`: the advance of the fetch, and a taken skip (R25, R109). -/
def State.advancePc (s : State) : State := s.setPc (s.pc + 2)

/-- `PC <- (PC - 2) mod 4096`: the rewind of the key wait (R152). -/
def State.rewindPc (s : State) : State := s.setPc (s.pc - 2)

/-- A skip instruction: the next word is skipped when `b` holds (R100, R109). -/
def State.skipIf (s : State) (b : Bool) : State := if b then s.advancePc else s

/-- `DT <- b`. -/
def State.setDt (s : State) (b : Byte) : State := { s with dt := b }

/-- `ST <- b`. -/
def State.setSt (s : State) (b : Byte) : State := { s with st := b }

/-- `K[k]`. -/
def State.getKey (s : State) (k : Key) : Bool := s.key[k.val]'k.isLt

/-- `K[k] <- b`: only the host's key edges do this (R31, R176). -/
def State.setKey (s : State) (k : Key) (b : Bool) : State := { s with key := s.key.set k.val b k.isLt }

/-! ### Memory (R52 to R55) -/

/-- `MemRead(a, 1)`: any natural number is an address, reduced mod 4096 (R52, R55). -/
def State.memRead (s : State) (a : Nat) : Byte := s.mem.read (resetByte s.cfg) (a % 4096)

/-- `MemWrite(a, 1, b)` (R53, R55). -/
def State.memWrite (s : State) (a : Nat) (b : Byte) : State :=
  { s with mem := s.mem.write (resetByte s.cfg) (a % 4096) b }

/-- The fetched word, `MemRead(PC, 2)`: the byte at the lower address is bits 15:8 (R52, R54, R70). -/
def State.fetch (s : State) : Word := wordOf (s.memRead s.pc.toNat) (s.memRead (s.pc.toNat + 1))

/-- Places bytes at consecutive addresses: the `DB` directive (R86). -/
def State.placeBytes (s : State) (a : Nat) : List Byte → State
  | [] => s
  | b :: bs => (s.memWrite a b).placeBytes (a + 1) bs

/-! ### The raster (R140) -/

/-- `PixClear()`. -/
def State.pixClear (s : State) : State := { s with fb := clearRaster }

/-- `PixGet(x, y)`: a coordinate off the grid reads OFF. -/
def State.pixGet (s : State) (x y : Nat) : Bool :=
  if h : x < 64 ∧ y < 32 then (s.fb[y]'h.2)[x]'h.1 else false

/-- `PixSet(x, y, b)`: a write off the grid is dropped. -/
def State.pixSet (s : State) (x y : Nat) (b : Bool) : State :=
  if h : x < 64 ∧ y < 32 then { s with fb := s.fb.set y ((s.fb[y]'h.2).set x b h.1) h.2 } else s

/-! ### The stack (R29) -/

/-- `Push(a)`: the state after it, or the fatal condition it raises. -/
def State.push (s : State) (a : Addr) : Except Cause State :=
  if s.sp = s.cfg.stackDepth then .error .stackOverflow
  else .ok { s with stack := s.stack.set s.sp a, sp := s.sp + 1 }

/-- `Pop()`: the value and the state after it, or the fatal condition it raises. The entry popped
stays in `S`. -/
def State.pop (s : State) : Except Cause (Addr × State) :=
  if s.sp = 0 then .error .stackUnderflow
  else .ok (s.stack.getD (s.sp - 1) 0, { s with sp := s.sp - 1 })

/-! ### Fatal conditions, reset, diagnostics, random byte -/

/-- `raise Fatal(c)` (R164): nothing is saved, no mode changes, control goes nowhere. -/
def State.raiseFatal (s : State) (c : Cause) : State := { s with halt := true, cause := c }

/-- `Reset()` (R191): the same full reinitialisation for power-on, the host event and the watchdog
(R190). `K` is not changed, nor what is the host's: the configuration, the events still to come, the
draws made and the diagnostics put out (assumptions 1, 5, 8). Memory with nothing listed is memory
cleared, then font and ROM installed. -/
def State.reinit (s : State) : State :=
  { s with
      v := Vector.replicate 16 0, i := 0x000, pc := 0x200, sp := 0,
      stack := List.replicate s.cfg.stackDepth 0, dt := 0, st := 0, mem := [],
      fb := clearRaster, halt := false, cause := .none, wdCnt := 0, wdLast := 0x000 }

/-- `diag(d)` (R181). -/
def State.emit (s : State) (d : Diag) : State := { s with diag := d :: s.diag }

/-- `RndByte()` (R124): a free value, and the state in which the next draw is another one. -/
def State.draw (s : State) : Byte × State := (Config.rndByte s.draws, { s with draws := s.draws + 1 })

/-! ### Output ports (R175) -/

/-- `TONE`: 1 exactly when `ST > 0` (R178). -/
def State.tone (s : State) : Bool := decide (0 < s.st.toNat)

/-- `FATAL` (R164). -/
def State.fatal (s : State) : Bool := s.halt

/-- The 2-bit code of a cause (R161). -/
def causeCode : Cause → BitVec 2
  | .none => 0
  | .decodeFatal => 1
  | .stackUnderflow => 2
  | .stackOverflow => 3

/-- `FATAL_CAUSE[1:0]` (R164, R175). -/
def State.fatalCause (s : State) : BitVec 2 := causeCode s.cause

/-- The raster as the host scans it out between events: column `x`, row `y` (R145). The read has no
effect on the core. -/
def State.scanOut (s : State) (x : Fin 64) (y : Fin 32) : Bool := s.pixGet x.val y.val

end Sys2Proof.Machine
end

