-- ==== Sys2Proof/Machine/Operands.lean ====
section
/-! DEFINITION. The operand forms: the effective address through `I` (R130), the sums written to `I`
and `PC`, the glyph address (R133), the decimal digits (R134), the key index (R156), the sprite origin
(R143) and the block of registers V0..VX (R21, R135, R136). Register and immediate operands are read
with `State.getV` and from the instruction's fields (R72). -/

namespace Sys2Proof.Machine

/-- The effective address of element `k`: `(I + k) mod 4096` (R130). -/
def State.effAddr (s : State) (k : Nat) : Nat := (s.i.toNat + k) % 4096

/-- `(base + b) mod 4096`, for `I + Vx` (R132) and `V0 + NNN` (R108). -/
def addToAddr (base : Addr) (b : Byte) : Addr := BitVec.ofNat 12 (base.toNat + b.toNat)

/-- `(0x050 + 5 * b) mod 4096`; the whole byte is used (R133). -/
def glyphAddr (b : Byte) : Addr := BitVec.ofNat 12 (0x050 + 5 * b.toNat)

/-- The hundreds digit (R134). -/
def hundreds (b : Byte) : Byte := BitVec.ofNat 8 (b.toNat / 100)

/-- The tens digit (R134). -/
def tens (b : Byte) : Byte := BitVec.ofNat 8 (b.toNat / 10 % 10)

/-- The ones digit (R134). -/
def ones (b : Byte) : Byte := BitVec.ofNat 8 (b.toNat % 10)

/-- The key index of a register value: its low four bits (R156). -/
def keyIndex (b : Byte) : Key := ⟨b.toNat % 16, Nat.mod_lt _ (by decide)⟩

/-- The column of a sprite's origin: only the origin wraps (R143). -/
def originX (b : Byte) : Nat := b.toNat % 64

/-- The row of a sprite's origin (R143). -/
def originY (b : Byte) : Nat := b.toNat % 32

/-- The registers V0..VX in ascending order (R135, R136). -/
def regsUpTo (x : Reg) : List Reg := (List.finRange 16).filter fun k => k ≤ x

/-- The smallest pressed key, scanning indices 0..15 in ascending order (R152). -/
def State.firstKey (s : State) : Option Key := (List.finRange 16).find? s.getKey

end Sys2Proof.Machine
end

