-- ==== Sys2Proof/Machine/ControlFlow.lean ====
section
/-! DEFINITION. The control-flow instructions (R100 to R108). `PC` already holds the address of the
next instruction when a meaning starts (R25, R100). -/

namespace Sys2Proof.Machine

/-- RET (R101): a pop, or the fatal condition StackUnderflow. -/
def execRet (s : State) : Host.Outcome State Fault Refusal :=
  match s.pop with
  | .ok (a, t) => .next (t.setPc a)
  | .error c => .next (s.raiseFatal c)

/-- JP NNN (R102). -/
def execJp (nnn : Addr) (s : State) : Host.Outcome State Fault Refusal := .next (s.setPc nnn)

/-- CALL NNN (R103): a push of the post-fetch `PC`, or the fatal condition StackOverflow. -/
def execCall (nnn : Addr) (s : State) : Host.Outcome State Fault Refusal :=
  match s.push s.pc with
  | .ok t => .next (t.setPc nnn)
  | .error c => .next (s.raiseFatal c)

/-- SE Vx, NN (R104). -/
def execSeImm (x : Reg) (nn : Byte) (s : State) : Host.Outcome State Fault Refusal :=
  .next (s.skipIf (s.getV x = nn))

/-- SNE Vx, NN (R105). -/
def execSneImm (x : Reg) (nn : Byte) (s : State) : Host.Outcome State Fault Refusal :=
  .next (s.skipIf (s.getV x ≠ nn))

/-- SE Vx, Vy (R106). -/
def execSeReg (x y : Reg) (s : State) : Host.Outcome State Fault Refusal :=
  .next (s.skipIf (s.getV x = s.getV y))

/-- SNE Vx, Vy (R107). -/
def execSneReg (x y : Reg) (s : State) : Host.Outcome State Fault Refusal :=
  .next (s.skipIf (s.getV x ≠ s.getV y))

/-- JP V0, NNN (R108): the offset register is always V0. -/
def execJpV0 (nnn : Addr) (s : State) : Host.Outcome State Fault Refusal :=
  .next (s.setPc (addToAddr nnn (s.getV 0)))

end Sys2Proof.Machine
end

