-- ==== Sys2Proof/Machine/Flags.lean ====
section
/-! DEFINITION. The flag computations (R22, R111) and the order in which a flag-setting instruction
writes VF and its result (R110). -/

namespace Sys2Proof.Machine

/-- The byte a flag is written as: 1 or 0 (R22). -/
def flagByte (b : Bool) : Byte := if b then 1 else 0

/-- The carry of an addition: the true sum exceeds 255 (R111, R118). -/
def carryOut (a b : Byte) : Bool := decide (255 < a.toNat + b.toNat)

/-- The no-borrow flag of a subtraction: the minuend is strictly greater (R111, R119, R121). -/
def noBorrow (a b : Byte) : Bool := decide (b.toNat < a.toNat)

/-- The bit a right shift moves out (R120). -/
def shiftedOutRight (a : Byte) : Bool := a.getLsbD 0

/-- The bit a left shift moves out (R123). -/
def shiftedOutLeft (a : Byte) : Bool := a.getLsbD 7

/-- Writes the flag first and the result second, so that with `x = 0xF` VF ends as the result (R110). -/
def State.writeFlagged (s : State) (x : Reg) (flag : Bool) (r : Byte) : State :=
  (s.setV VF (flagByte flag)).setV x r

end Sys2Proof.Machine
end

