-- ==== Sys2Proof/Machine/Display.lean ====
section
/-! DEFINITION. Display instructions (R142, R143). -/

namespace Sys2Proof.Machine

/-- CLS (R142): VF is unchanged. -/
def execCls (s : State) : Host.Outcome State Fault Refusal := .next s.pixClear

/-- A set sprite bit at column `x`, row `y`: an ON cell goes OFF and is a collision, another goes ON. A
coordinate off the grid reads OFF and its write is dropped (R140, R143). -/
def State.drawBit (s : State) (x y : Nat) : State :=
  if s.pixGet x y then (s.setV VF (flagByte true)).pixSet x y false else s.pixSet x y true

/-- One sprite row: bit 7 of `b` is the leftmost pixel; a 0 bit touches nothing (R143). -/
def State.drawRow (s : State) (x y : Nat) (b : Byte) : State :=
  (List.range 8).foldl (fun t col => if b.getLsbD (7 - col) then t.drawBit (x + col) y else t) s

/-- The rows of a sprite whose origin is `(x, y)`; row `row` is the byte at `I + row` (R143). -/
def State.drawSprite (s : State) (x y n : Nat) : State :=
  (List.range n).foldl (fun t row => t.drawRow x (y + row) (t.memRead (t.effAddr row))) s

/-- DRW Vx, Vy, N (R143): the origin is read before VF is cleared. -/
def execDrw (x y : Reg) (n : BitVec 4) (s : State) : Host.Outcome State Fault Refusal :=
  .next ((s.setV VF (flagByte false)).drawSprite (originX (s.getV x)) (originY (s.getV y)) n.toNat)

end Sys2Proof.Machine
end

