-- ==== Sys2Proof/Machine/IndexMemory.lean ====
section
/-! DEFINITION. Index register and memory instructions (R130 to R136). No access modifies `I` (R130). -/

namespace Sys2Proof.Machine

/-- LD I, NNN (R131). -/
def execLdI (nnn : Addr) (s : State) : Host.Outcome State Fault Refusal := .next (s.setI nnn)

/-- ADD I, Vx (R132): mod 4096, VF is not written. -/
def execAddI (x : Reg) (s : State) : Host.Outcome State Fault Refusal :=
  .next (s.setI (addToAddr s.i (s.getV x)))

/-- LD F, Vx (R133). -/
def execLdF (x : Reg) (s : State) : Host.Outcome State Fault Refusal := .next (s.setI (glyphAddr (s.getV x)))

/-- Stores the three decimal digits of `a` at `I`, `I + 1`, `I + 2` (R134). -/
def State.storeDigits (s : State) (a : Byte) : State :=
  ((s.memWrite (s.effAddr 0) (hundreds a)).memWrite (s.effAddr 1) (tens a)).memWrite (s.effAddr 2) (ones a)

/-- LD B, Vx (R134). -/
def execLdB (x : Reg) (s : State) : Host.Outcome State Fault Refusal := .next (s.storeDigits (s.getV x))

/-- `MemWrite(I + k, 1, V[k])`, one turn of the loop of R135. -/
def State.dumpReg (s : State) (k : Reg) : State := s.memWrite (s.effAddr k.val) (s.getV k)

/-- LD [I], Vx (R135). -/
def execDump (x : Reg) (s : State) : Host.Outcome State Fault Refusal :=
  .next ((regsUpTo x).foldl State.dumpReg s)

/-- `V[k] <- MemRead(I + k, 1)`, one turn of the loop of R136. -/
def State.loadReg (s : State) (k : Reg) : State := s.setV k (s.memRead (s.effAddr k.val))

/-- LD Vx, [I] (R136). -/
def execLoad (x : Reg) (s : State) : Host.Outcome State Fault Refusal :=
  .next ((regsUpTo x).foldl State.loadReg s)

end Sys2Proof.Machine
end

