-- ==== Sys2Proof/Machine/KeypadTimers.lean ====
section
/-! DEFINITION. Keypad and timer instructions (R150 to R155). -/

namespace Sys2Proof.Machine

/-- SKP Vx (R150): the latch's level at this tick. -/
def execSkp (x : Reg) (s : State) : Host.Outcome State Fault Refusal :=
  .next (s.skipIf (s.getKey (keyIndex (s.getV x))))

/-- SKNP Vx (R151). -/
def execSknp (x : Reg) (s : State) : Host.Outcome State Fault Refusal :=
  .next (s.skipIf (!s.getKey (keyIndex (s.getV x))))

/-- LD Vx, K (R152): a busy wait, by rewinding `PC` to this instruction while no key is pressed. -/
def execLdVxK (x : Reg) (s : State) : Host.Outcome State Fault Refusal :=
  match s.firstKey with
  | some k => .next (s.setV x (BitVec.ofNat 8 k.val))
  | none => .next s.rewindPc

/-- LD Vx, DT (R153). -/
def execLdVxDt (x : Reg) (s : State) : Host.Outcome State Fault Refusal := .next (s.setV x s.dt)

/-- LD DT, Vx (R154). -/
def execLdDtVx (x : Reg) (s : State) : Host.Outcome State Fault Refusal := .next (s.setDt (s.getV x))

/-- LD ST, Vx (R155). -/
def execLdStVx (x : Reg) (s : State) : Host.Outcome State Fault Refusal := .next (s.setSt (s.getV x))

end Sys2Proof.Machine
end

