-- ==== Sys2Proof/Machine/LoadAlu.lean ====
section
/-! DEFINITION. Register load, arithmetic, logic, shift and random instructions (R110 to R124). Every
operand is read before anything is written (R110). -/

namespace Sys2Proof.Machine

/-- LD Vx, NN (R112). -/
def execLdImm (x : Reg) (nn : Byte) (s : State) : Host.Outcome State Fault Refusal := .next (s.setV x nn)

/-- ADD Vx, NN (R113): wraps mod 256, sets no flag. -/
def execAddImm (x : Reg) (nn : Byte) (s : State) : Host.Outcome State Fault Refusal :=
  .next (s.setV x (s.getV x + nn))

/-- LD Vx, Vy (R114). -/
def execLdReg (x y : Reg) (s : State) : Host.Outcome State Fault Refusal := .next (s.setV x (s.getV y))

/-- OR Vx, Vy (R115): VF is left as it was. -/
def execOr (x y : Reg) (s : State) : Host.Outcome State Fault Refusal :=
  .next (s.setV x (s.getV x ||| s.getV y))

/-- AND Vx, Vy (R116). -/
def execAnd (x y : Reg) (s : State) : Host.Outcome State Fault Refusal :=
  .next (s.setV x (s.getV x &&& s.getV y))

/-- XOR Vx, Vy (R117). -/
def execXor (x y : Reg) (s : State) : Host.Outcome State Fault Refusal :=
  .next (s.setV x (s.getV x ^^^ s.getV y))

/-- ADD Vx, Vy (R118). -/
def execAddReg (x y : Reg) (s : State) : Host.Outcome State Fault Refusal :=
  .next (s.writeFlagged x (carryOut (s.getV x) (s.getV y)) (s.getV x + s.getV y))

/-- SUB Vx, Vy (R119). -/
def execSub (x y : Reg) (s : State) : Host.Outcome State Fault Refusal :=
  .next (s.writeFlagged x (noBorrow (s.getV x) (s.getV y)) (s.getV x - s.getV y))

/-- SHR Vx (R120): in place; the `y` field has no effect (assumption 17). -/
def execShr (x _y : Reg) (s : State) : Host.Outcome State Fault Refusal :=
  .next (s.writeFlagged x (shiftedOutRight (s.getV x)) (s.getV x >>> 1))

/-- SUBN Vx, Vy (R121): the destination is still Vx. -/
def execSubn (x y : Reg) (s : State) : Host.Outcome State Fault Refusal :=
  .next (s.writeFlagged x (noBorrow (s.getV y) (s.getV x)) (s.getV y - s.getV x))

/-- SHL Vx (R123): in place, masked to 8 bits; the `y` field has no effect (assumption 17). -/
def execShl (x _y : Reg) (s : State) : Host.Outcome State Fault Refusal :=
  .next (s.writeFlagged x (shiftedOutLeft (s.getV x)) (s.getV x <<< 1))

/-- RND Vx, NN (R124): one fresh draw, masked by the immediate. -/
def execRnd (x : Reg) (nn : Byte) (s : State) : Host.Outcome State Fault Refusal :=
  .next (s.draw.2.setV x (s.draw.1 &&& nn))

end Sys2Proof.Machine
end

