-- ==== Sys2Proof/WellFormed.lean ====
section
/-! DEFINITION. What a well-formed term is. An `Instr` is well-formed by its type: each operand has
exactly the width of its field (R72), so there is no instruction check to make. A configuration is
data from the host, and R8 bounds it: its three checks stand here. A core whose configuration fails
one is refused (R8, R65, R193; 93_implementation_defined.md U12; for the font and the stack assumption 3). -/

namespace Sys2Proof

/-- "list of bytes, length 0..3584" (R8): the image fits between 0x200 and the end of memory (R65). -/
def Config.romFits (c : Config) : Bool := decide (c.rom.length ≤ 3584)

/-- "list of exactly 80 bytes" (R8): 16 glyphs of 5 bytes (R59). -/
def Config.fontComplete (c : Config) : Bool := decide (c.font.length = 80)

/-- "natural number >= 1" (R8): there is at least one stack entry. -/
def Config.stackExists (c : Config) : Bool := decide (1 ≤ c.stackDepth)

/-- A configuration that R8 gives a meaning to. -/
def Config.wf (c : Config) : Bool := c.romFits && c.fontComplete && c.stackExists

end Sys2Proof
end

