-- ==== Sys2Proof/Machine/Events.lean ====
section
/-! DEFINITION. The host events (R175): `Tick` with its watchdog step (R170, R179), `Frame` (R177), the
key edges (R176) and `Reset` (R191); and one step of the machine, which delivers the next event. -/

namespace Sys2Proof.Machine

/-- `WD_THRESHOLD`, fixed by the document (R7, R8). -/
def wdThreshold : Nat := 100

/-- The repeat counter after a tick that ends with this state's `PC` (R179). -/
def State.nextWdCnt (s : State) : Nat := if s.pc = s.wdLast then s.wdCnt + 1 else 0

/-- `WatchdogStep()` (R179): the tick that brings the counter past the threshold ends with a reset,
which also clears the watchdog's registers. -/
def State.watchdogStep (s : State) : State :=
  if wdThreshold < s.nextWdCnt then (s.emit .watchdogReset).reinit
  else { s with wdCnt := s.nextWdCnt, wdLast := s.pc }

/-- The end of a tick: the watchdog step, unless the instruction raised a fatal condition (R164, R170). -/
def State.endTick (s : State) : State := if s.halt then s else s.watchdogStep

/-- What an executed instruction leads to at the end of its tick (R170). -/
def endExec : Host.Outcome State Fault Refusal → Host.Outcome State Fault Refusal
  | .next t => .next t.endTick
  | .fault f => .fault f
  | .refused r => .refused r

/-- `Tick()` (R170): fetch, advance `PC`, decode, execute, watchdog. A halted core does nothing (R171). -/
def tick (s : State) : Host.Outcome State Fault Refusal :=
  if s.halt then .next s
  else
    match decode s.fetch with
    | .instr i => endExec (exec i s.advancePc)
    | .miss => .next (s.advancePc.emit (.decodeMiss s.fetch s.pc)).endTick
    | .noFamily => .next (s.advancePc.raiseFatal .decodeFatal).endTick

/-- A timer counts down by one, floored at zero (R30, R177). -/
def countDown (b : Byte) : Byte := if 0 < b.toNat then b - 1 else b

/-- `Frame()` (R177). -/
def State.frame (s : State) : State := { s with dt := countDown s.dt, st := countDown s.st }

/-- Delivers one host event; each is atomic (R60, R175). Only `Tick` asks whether the core is halted
(R176, R177). -/
def deliver (e : HostEvent) (s : State) : Host.Outcome State Fault Refusal :=
  match e with
  | .reset => .next s.reinit
  | .tick => tick s
  | .frame => .next s.frame
  | .keyDown k => .next (s.setKey k true)
  | .keyUp k => .next (s.setKey k false)

/-- The state in which the first pending event is delivered: it is no longer pending. -/
def State.withInputs (s : State) (es : List HostEvent) : State := { s with inputs := es }

/-- One step: the next pending host event, or a `Tick` when none is pending (assumption 1). A
configuration that is not well-formed has no run (R8; assumption 3). -/
def stepEvent (s : State) : Host.Outcome State Fault Refusal :=
  if s.cfg.wf then
    match s.inputs with
    | [] => tick s
    | e :: es => deliver e (s.withInputs es)
  else .refused .configuration

/-- Makes this state's next step a tick that fetches `w`: the word lies at `PC` in big-endian order
(R54), the core is not halted and no other event is pending. -/
def State.placeFetch (s : State) (w : Word) : State :=
  { s.placeBytes s.pc.toNat (bytesOf w) with halt := false, cause := .none, inputs := [] }

end Sys2Proof.Machine
end

