-- ==== Sys2Proof/Machine/Step.lean ====
section
/-! DEFINITION. The step function of the machine and the host's way to place an instruction. -/

namespace Sys2Proof.Machine

/-- One step of the machine: one host event (R175). -/
def step (s : State) : Host.Outcome State Fault Refusal := stepEvent s

/-- `s` with the table word `w` of `nbits` bits where the next step fetches its instruction
(assumption 11). -/
def State.withFetchWord (s : State) (nbits w : Nat) : State := s.placeFetch (tableWord nbits w)

end Sys2Proof.Machine
end

