-- ==== Sys2Proof/Safety.lean ====
section
/-! DEFINITION. The terms in which claims speak of runs: the invariant of the machine (R39), the state
a tick runs in, the frame of an instruction, where `PC` goes (R25), and the sprite cells of a DRW. -/

namespace Sys2Proof.Machine

/-- The invariant that holds after reset and after every event: R39's bounds that the types do not
already give, the canonical form of memory, the shape of the stack (R27), and `CAUSE = 0` exactly when
`HALT = 0` (R161). -/
structure State.Inv (s : State) : Prop where
  cfg : s.cfg.wf = true
  mem : s.mem.wf (resetByte s.cfg)
  sp : s.sp ≤ s.cfg.stackDepth
  stack : s.stack.length = s.cfg.stackDepth
  wdCnt : s.wdCnt ≤ 100
  cause : s.halt = false ↔ s.cause = .none

/-- The state in which the next step's tick runs, when the next step is a tick: nothing is pending, or
the next pending event is `Tick` and is taken off. -/
def State.atTick (s : State) : Option State :=
  match s.inputs with
  | [] => some s
  | .tick :: es => some (s.withInputs es)
  | _ :: _ => none

/-- What an execute step may change; everything not named stays. `mem` lists addresses below 4096. -/
structure Writes where
  regs : List Reg := []
  i : Bool := false
  pc : Bool := false
  sp : Bool := false
  stack : Bool := false
  dt : Bool := false
  st : Bool := false
  mem : List Nat := []
  fb : Bool := false
  halt : Bool := false
  draws : Bool := false
  deriving DecidableEq, Repr

/-- `t` differs from `s` at most in what `w` names. The key latch, the watchdog registers, the
configuration, the pending events and the diagnostics are never an instruction's to change (R31, R35,
R36, R181). Memory is compared through the read of one byte. -/
structure Frame (w : Writes) (s t : State) : Prop where
  regs : ∀ r, r ∉ w.regs → t.getV r = s.getV r
  i : w.i = false → t.i = s.i
  pc : w.pc = false → t.pc = s.pc
  sp : w.sp = false → t.sp = s.sp
  stack : w.stack = false → t.stack = s.stack
  dt : w.dt = false → t.dt = s.dt
  st : w.st = false → t.st = s.st
  mem : ∀ a, a % 4096 ∉ w.mem → t.memRead a = s.memRead a
  fb : w.fb = false → ∀ x y, t.pixGet x y = s.pixGet x y
  halt : w.halt = false → t.halt = s.halt ∧ t.cause = s.cause
  draws : w.draws = false → t.draws = s.draws
  key : t.key = s.key
  wdLast : t.wdLast = s.wdLast
  wdCnt : t.wdCnt = s.wdCnt
  cfg : t.cfg = s.cfg
  inputs : t.inputs = s.inputs
  diag : t.diag = s.diag

/-- Where `PC` is after the execute step of an instruction that began with the post-fetch `PC` (the
table of R25). -/
def pcAfter (i : Instr) (s : State) : Addr :=
  match i with
  | .ret => if s.sp = 0 then s.pc else s.stack.getD (s.sp - 1) 0
  | .jp nnn => nnn
  | .call nnn => if s.sp = s.cfg.stackDepth then s.pc else nnn
  | .seImm x nn => if s.getV x = nn then s.pc + 2 else s.pc
  | .sneImm x nn => if s.getV x = nn then s.pc else s.pc + 2
  | .seReg x y => if s.getV x = s.getV y then s.pc + 2 else s.pc
  | .sneReg x y => if s.getV x = s.getV y then s.pc else s.pc + 2
  | .skp x => if s.getKey (keyIndex (s.getV x)) then s.pc + 2 else s.pc
  | .sknp x => if s.getKey (keyIndex (s.getV x)) then s.pc else s.pc + 2
  | .jpV0 nnn => addToAddr nnn (s.getV 0)
  | .ldVxK _ => if ∃ k : Key, s.getKey k then s.pc else s.pc - 2
  | .cls | .ldImm _ _ | .addImm _ _ | .ldReg _ _ | .or _ _ | .and _ _ | .xor _ _ | .addReg _ _ | .sub _ _
  | .shr _ _ | .subn _ _ | .shl _ _ | .ldI _ | .rnd _ _ | .drw _ _ _ | .ldVxDt _ | .ldDtVx _ | .ldStVx _
  | .addI _ | .ldF _ | .ldB _ | .dump _ | .load _ => s.pc

/-- The instructions that write VF as a side effect (the table of R22). -/
def setsFlag : Instr → Bool
  | .addReg _ _ | .sub _ _ | .shr _ _ | .subn _ _ | .shl _ _ | .drw _ _ _ => true
  | .cls | .ret | .jp _ | .call _ | .seImm _ _ | .sneImm _ _ | .seReg _ _ | .ldImm _ _ | .addImm _ _
  | .ldReg _ _ | .or _ _ | .and _ _ | .xor _ _ | .sneReg _ _ | .ldI _ | .jpV0 _ | .rnd _ _ | .skp _ | .sknp _
  | .ldVxDt _ | .ldVxK _ | .ldDtVx _ | .ldStVx _ | .addI _ | .ldF _ | .ldB _ | .dump _ | .load _ => false

/-- The registers an instruction names as its destination: `V[X]`, or V0..VX for a register load. -/
def destRegs : Instr → List Reg
  | .ldImm x _ | .addImm x _ | .ldReg x _ | .or x _ | .and x _ | .xor x _ | .addReg x _ | .sub x _ | .shr x _
  | .subn x _ | .shl x _ | .rnd x _ | .ldVxDt x | .ldVxK x => [x]
  | .load x => regsUpTo x
  | .cls | .ret | .jp _ | .call _ | .seImm _ _ | .sneImm _ _ | .seReg _ _ | .sneReg _ _ | .ldI _ | .jpV0 _
  | .drw _ _ _ | .skp _ | .sknp _ | .ldDtVx _ | .ldStVx _ | .addI _ | .ldF _ | .ldB _ | .dump _ => []

/-- The addresses an instruction stores to, from the state it executes in (R57). -/
def storedAddrs (i : Instr) (s : State) : List Nat :=
  match i with
  | .ldB _ => [s.effAddr 0, s.effAddr 1, s.effAddr 2]
  | .dump x => (regsUpTo x).map fun k => s.effAddr k.val
  | .cls | .ret | .jp _ | .call _ | .seImm _ _ | .sneImm _ _ | .seReg _ _ | .ldImm _ _ | .addImm _ _
  | .ldReg _ _ | .or _ _ | .and _ _ | .xor _ _ | .addReg _ _ | .sub _ _ | .shr _ _ | .subn _ _ | .shl _ _
  | .sneReg _ _ | .ldI _ | .jpV0 _ | .rnd _ _ | .drw _ _ _ | .skp _ | .sknp _ | .ldVxDt _ | .ldVxK _
  | .ldDtVx _ | .ldStVx _ | .addI _ | .ldF _ | .load _ => []

/-- Whether the sprite of `n` rows at `I`, with its origin at column `x0`, row `y0`, has a set bit for
the cell at column `x`, row `y`: bit 7 is the leftmost (R143). -/
def State.spriteBit (s : State) (x0 y0 n x y : Nat) : Bool :=
  decide (x0 ≤ x ∧ x < x0 + 8 ∧ y0 ≤ y ∧ y < y0 + n) &&
    (s.memRead (s.effAddr (y - y0))).getLsbD (7 - (x - x0))

end Sys2Proof.Machine
end

