-- ==== Sys2Proof/Certificates/Slice0/Obligations.lean ====
section
/-! DEFINITION. The statements for the provers. Each docstring names the rule of spec/ it formalises.
`Frame w s t` says that `t` differs from `s` at most in what `w` names. -/

open Sys2Proof Sys2Proof.Machine

/-! ### Encoding and decoding -/

/-- Words written out from the patterns of R75, the four the document spells out among them, decode to
the instructions they stand for, and words of R81 and R82 decode to none. -/
def Obligations.WrittenOutWordsDecode : Prop :=
  decodeTableWord 16 0x00E0 = some .cls ∧ decodeTableWord 16 0xA2F0 = some (.ldI 0x2F0) ∧
  decodeTableWord 16 0x6A07 = some (.ldImm 0xA 0x07) ∧ decodeTableWord 16 0x7A05 = some (.addImm 0xA 0x05) ∧
  decodeTableWord 16 0x00EE = some .ret ∧ decodeTableWord 16 0x1ABC = some (.jp 0xABC) ∧
  decodeTableWord 16 0x8AB4 = some (.addReg 0xA 0xB) ∧ decodeTableWord 16 0xD12F = some (.drw 1 2 0xF) ∧
  decodeTableWord 16 0xE5A1 = some (.sknp 5) ∧ decodeTableWord 16 0xF60A = some (.ldVxK 6) ∧
  decodeTableWord 16 0x0123 = none ∧ decodeTableWord 16 0x5121 = none ∧ decodeTableWord 16 0x812F = none ∧
  decodeTableWord 16 0xE59F = none ∧ decodeTableWord 16 0xF075 = none

/-- Decoding the word of any instruction, with every operand at any value, gives it back. -/
def Obligations.DecodeOfEncodeIsTheInstruction : Prop := ∀ i : Instr, decode (encode i) = .instr i

/-- A word that decodes to an instruction is the one word of that instruction. -/
def Obligations.EncodeOfDecodeIsTheWord : Prop := ∀ (w : Word) (i : Instr), decode w = .instr i → encode i = w

/-- R72: the five fields are extracted from fixed bit positions, unsigned. -/
def Obligations.FieldsLieAtFixedBits : Prop :=
  ∀ w : Word, (fieldsOf w).x.val = w.toNat / 256 % 16 ∧ (fieldsOf w).y.val = w.toNat / 16 % 16 ∧
    (fieldsOf w).n.toNat = w.toNat % 16 ∧ (fieldsOf w).nn.toNat = w.toNat % 256 ∧
    (fieldsOf w).nnn.toNat = w.toNat % 4096

/-- R75, R81: a word decodes to an instruction whose row it selects, and is a decode miss exactly when
it selects no row. -/
def Obligations.DecodeFollowsTheOpcodeMap : Prop :=
  (∀ (w : Word) (i : Instr), decode w = .instr i → (opcodeRow i).selects w) ∧
  ∀ w : Word, decode w = .miss ↔ ∀ r ∈ opcodeTable, ¬r.selects w

/-- R76: no word selects two rows. -/
def Obligations.NoWordSelectsTwoRows : Prop :=
  ∀ (w : Word) (r r' : OpRow), r ∈ opcodeTable → r' ∈ opcodeTable → r.selects w → r'.selects w → r = r'

/-- R83: every leading nibble has a family, so the fatal decode error cannot occur for any word. -/
def Obligations.EveryWordHasAFamily : Prop := ∀ w : Word, decode w ≠ .noFamily

/-! ### The tick -/

/-- R170: when the next event is a tick, the core runs and the word at `PC` decodes to an instruction,
the step is that instruction's execute step from the state with `PC` advanced by 2, and then, unless it
raised a fatal condition, the watchdog step. That a step with no pending event is a tick is the model's
choice (assumption 1). -/
def Obligations.StepRunsTheDecodedInstruction : Prop :=
  ∀ (s u : State) (i : Instr), s.cfg.wf = true → s.atTick = some u → u.halt = false → decode u.fetch = .instr i →
    step s = match exec i (u.setPc (u.pc + 2)) with
      | .next t => .next (if t.halt then t else t.watchdogStep)
      | .fault f => .fault f
      | .refused r => .refused r

/-- The host's way to place an instruction, the model's own (assumption 11), works in every state: the very
next step of the changed state is a tick that fetches the word; `PC`, the registers and every byte outside
the word's two are as before. -/
def Obligations.PlacedWordIsFetchedNext : Prop :=
  ∀ (s : State) (nbits w : Nat),
    (s.withFetchWord nbits w).fetch = BitVec.ofNat 16 (w % 2 ^ nbits) ∧
    (s.withFetchWord nbits w).atTick = some (s.withFetchWord nbits w) ∧ (s.withFetchWord nbits w).halt = false ∧
    (s.withFetchWord nbits w).pc = s.pc ∧ (s.withFetchWord nbits w).v = s.v ∧
    ∀ a, a % 4096 ≠ s.pc.toNat → a % 4096 ≠ (s.pc + 1).toNat → (s.withFetchWord nbits w).memRead a = s.memRead a

/-- R54, R70: the fetched word is the byte at `PC` in bits 15:8 and the byte at the next address, mod
4096, in bits 7:0. -/
def Obligations.FetchIsBigEndian : Prop :=
  ∀ s : State, s.fetch.toNat = 256 * (s.memRead s.pc.toNat).toNat + (s.memRead ((s.pc + 1).toNat)).toNat

/-- R81: a word that matches no row of R75 executes as a no-op: the tick only advances `PC` by 2 and emits
the diagnostic with the word and its fetch address, and the watchdog step runs as after any instruction.
That the diagnostics are kept as a list (assumption 8) and that a step with no pending event is a tick
(assumption 1) are the model's choice. -/
def Obligations.DecodeMissOnlyAdvancesPc : Prop :=
  ∀ s u : State, s.cfg.wf = true → s.atTick = some u → u.halt = false → (∀ r ∈ opcodeTable, ¬r.selects u.fetch) →
    step s = .next (State.watchdogStep
      { u with pc := u.pc + 2, diag := .decodeMiss u.fetch u.pc :: u.diag })

/-- R171, R169: a tick while the core is halted changes nothing; whatever event comes, the core stays
halted, with its cause, `PC`, registers, stack, memory and raster, until `Reset`, which clears `HALT`. That a
step delivers the next pending event, and a tick when there is none, is the model's choice (assumption 1). -/
def Obligations.HaltedCoreWaitsForReset : Prop :=
  (∀ s u : State, s.cfg.wf = true → s.atTick = some u → u.halt = true → step s = .next u) ∧
  (∀ s t : State, s.halt = true → (∀ es, s.inputs ≠ .reset :: es) → step s = .next t →
    t.halt = true ∧ t.cause = s.cause ∧ t.pc = s.pc ∧ t.v = s.v ∧ t.i = s.i ∧ t.sp = s.sp ∧ t.stack = s.stack ∧
      t.mem = s.mem ∧ t.fb = s.fb) ∧
  ∀ (s t : State) (es : List HostEvent), s.inputs = .reset :: es → step s = .next t → t.halt = false

/-- Every step of a core with a well-formed configuration answers a next state, whatever the state and
the event; a configuration that is not well-formed is refused. R8 says "refused" of a ROM that is too long
only: that a font of another length than 80 bytes and a stack of depth 0 are refused too is the model's
choice (assumption 3). -/
def Obligations.StepAlwaysCompletes : Prop :=
  (∀ s : State, s.cfg.wf = true → ∃ t, step s = .next t) ∧
  ∀ s : State, s.cfg.wf = false → step s = .refused .configuration

/-- R39: every step keeps the invariant. -/
def Obligations.StepKeepsInvariant : Prop := ∀ s t : State, s.Inv → step s = .next t → t.Inv

/-- The invariant holds after power-on reset. -/
def Obligations.ResetMeetsInvariant : Prop := State.reset.Inv

/-- R36: no step changes the configuration, which the model carries as a field of the state (assumption 2). -/
def Obligations.StepKeepsConfiguration : Prop := ∀ s t : State, step s = .next t → t.cfg = s.cfg

/-! ### Reset and the other host events -/

/-- R37: the state after power-on and reset. The stack entries, which the rule leaves unspecified, are
not named; that its ROM is empty and its font the default one is the model's choice (assumption 2). -/
def Obligations.ResetStateIsCanonical : Prop :=
  (∀ r, State.reset.getV r = 0) ∧ State.reset.i = 0x000 ∧ State.reset.pc = 0x200 ∧ State.reset.sp = 0 ∧
  State.reset.dt = 0 ∧ State.reset.st = 0 ∧ (∀ x y, State.reset.pixGet x y = false) ∧
  (∀ k, State.reset.getKey k = false) ∧ State.reset.halt = false ∧ State.reset.cause = .none ∧
  State.reset.wdCnt = 0 ∧ State.reset.wdLast = 0x000 ∧
  (∀ j < 80, State.reset.memRead (0x050 + j) = State.reset.cfg.font.getD j 0) ∧
  ∀ a < 4096, ¬(0x050 ≤ a ∧ a < 0x0A0) → State.reset.memRead a = 0

/-- R191: the event `Reset` reinitialises everything but the key latch: memory is cleared, then holds the
font at 0x050.. and the ROM at 0x200... The configuration, the events still pending, the draws made and
the diagnostics put out stay: those fields are the model's own (assumptions 1, 2, 5, 8). The outputs
after it are `TONE = 0`, `FATAL = 0`. -/
def Obligations.ResetEventReinitialises : Prop :=
  ∀ (s : State) (es : List HostEvent), s.cfg.wf = true → s.inputs = .reset :: es →
    ∃ t, step s = .next t ∧ (∀ r, t.getV r = 0) ∧ t.i = 0x000 ∧ t.pc = 0x200 ∧ t.sp = 0 ∧ t.dt = 0 ∧ t.st = 0 ∧
      (∀ j < 80, t.memRead (0x050 + j) = s.cfg.font.getD j 0) ∧
      (∀ j < s.cfg.rom.length, t.memRead (0x200 + j) = s.cfg.rom.getD j 0) ∧
      (∀ a < 4096, ¬(0x050 ≤ a ∧ a < 0x0A0) → ¬(0x200 ≤ a ∧ a < 0x200 + s.cfg.rom.length) → t.memRead a = 0) ∧
      (∀ x y, t.pixGet x y = false) ∧ t.halt = false ∧ t.cause = .none ∧ t.wdCnt = 0 ∧ t.wdLast = 0x000 ∧
      t.key = s.key ∧ t.tone = false ∧ t.fatal = false ∧
      t.cfg = s.cfg ∧ t.inputs = es ∧ t.draws = s.draws ∧ t.diag = s.diag

/-- R177: `Frame` decrements both timers by 1, floored at 0, and changes nothing else, halted or not; no
instruction counts a timer down: only its own move writes it. The queue of pending events, from which the
event is taken off, is the model's choice (assumption 1). -/
def Obligations.FrameCountsTheTimersDown : Prop :=
  (∀ (s : State) (es : List HostEvent), s.cfg.wf = true → s.inputs = .frame :: es →
    ∃ t, step s = .next t ∧ t.dt.toNat = s.dt.toNat - 1 ∧ t.st.toNat = s.st.toNat - 1 ∧
      t = { s with dt := t.dt, st := t.st, inputs := es }) ∧
  ∀ (i : Instr) (s t : State), exec i s = .next t →
    ((∀ x, i ≠ .ldDtVx x) → t.dt = s.dt) ∧ ((∀ x, i ≠ .ldStVx x) → t.st = s.st)

/-- R176: a press edge sets its key's latch, a release edge clears it; nothing else changes, halted or
not. The queue of pending events, from which the event is taken off, is the model's choice (assumption 1). -/
def Obligations.KeyEdgesSetTheLatch : Prop :=
  ∀ (s : State) (k : Key) (es : List HostEvent), s.cfg.wf = true →
    (s.inputs = .keyDown k :: es → ∃ t, step s = .next t ∧ t.getKey k = true ∧
      (∀ j, j ≠ k → t.getKey j = s.getKey j) ∧ t = { s with key := t.key, inputs := es }) ∧
    (s.inputs = .keyUp k :: es → ∃ t, step s = .next t ∧ t.getKey k = false ∧
      (∀ j, j ≠ k → t.getKey j = s.getKey j) ∧ t = { s with key := t.key, inputs := es })

/-! ### The watchdog -/

/-- R179: at the end of a tick that did not halt, whether it executed an instruction or missed, the counter
counts when `PC` is what it was at the end of the previous tick and is zeroed otherwise, `WD_LAST` takes
`PC`, and nothing else changes; when the counter exceeds 100, a diagnostic is put out and the core is fully
reset instead. Here `t` is the state that the instruction or the miss leaves. The model's choice is that the
diagnostics are kept as a list (assumption 8), that a reset leaves the stack entries 0 (assumption 6), and
that a step with no pending event is a tick (assumption 1). -/
def Obligations.WatchdogCountsRepeatsAndResets : Prop :=
  ∀ (s u t : State), s.cfg.wf = true → s.atTick = some u → u.halt = false →
    ((∃ i, decode u.fetch = .instr i ∧ exec i (u.setPc (u.pc + 2)) = .next t ∧ t.halt = false) ∨
      (decode u.fetch = .miss ∧ t = { u with pc := u.pc + 2, diag := .decodeMiss u.fetch u.pc :: u.diag })) →
    ∃ n, n = (if t.pc = u.wdLast then u.wdCnt + 1 else 0) ∧
      (n ≤ 100 → step s = .next { t with wdCnt := n, wdLast := t.pc }) ∧
      (100 < n → step s = .next { t with diag := .watchdogReset :: t.diag }.reinit)

/-- R179, R180, R197: a core at a jump to itself, or at a key wait with no key down, that ended the
previous tick at the same `PC` counts every tick, and the tick that brings the counter to 101 resets it. The model's choice
is that every step is a tick when no event is pending (assumption 1), that the diagnostics are kept as a list
(assumption 8), and that a reset leaves the stack entries 0 (assumption 6). -/
def Obligations.StalledCoreIsReset : Prop :=
  ∀ (s : State), s.cfg.wf = true → s.inputs = [] → s.halt = false → s.wdLast = s.pc → s.wdCnt ≤ 100 →
    (decode s.fetch = .instr (.jp s.pc) ∨
      ∃ x, decode s.fetch = .instr (.ldVxK x) ∧ ∀ k, s.getKey k = false) →
    (∀ m, m ≤ 100 - s.wdCnt → Host.Core.run Sys2Proof.core m s = .next { s with wdCnt := s.wdCnt + m }) ∧
    Host.Core.run Sys2Proof.core (101 - s.wdCnt) s = .next { s with diag := .watchdogReset :: s.diag }.reinit

/-! ### Fatal conditions -/

/-- R164: the tick of a RET with an empty stack, or of a CALL with a full one, leaves the state exactly
as before it, but for `PC` at the post-fetch value, `HALT = 1` and the cause; the outputs show it.
That a step with no pending event is a tick is the model's choice (assumption 1). -/
def Obligations.FatalTickIsPrecise : Prop :=
  ∀ s u : State, s.cfg.wf = true → s.atTick = some u → u.halt = false →
    (decode u.fetch = .instr .ret → u.sp = 0 →
      ∃ t, step s = .next t ∧ t = { u with pc := u.pc + 2, halt := true, cause := .stackUnderflow } ∧
        t.fatal = true ∧ t.fatalCause = 2) ∧
    (∀ nnn, decode u.fetch = .instr (.call nnn) → u.sp = u.cfg.stackDepth →
      ∃ t, step s = .next t ∧ t = { u with pc := u.pc + 2, halt := true, cause := .stackOverflow } ∧
        t.fatal = true ∧ t.fatalCause = 3)

/-- R161, R166: no instruction halts a running core but RET with an empty stack and CALL with a full
one. -/
def Obligations.OnlyStackFaultsAreFatal : Prop :=
  ∀ (i : Instr) (s t : State), s.halt = false → exec i s = .next t → t.halt = true →
    (i = .ret ∧ s.sp = 0 ∧ t.cause = .stackUnderflow) ∨
      ∃ nnn, i = .call nnn ∧ s.sp = s.cfg.stackDepth ∧ t.cause = .stackOverflow

/-! ### Control flow -/

/-- R102: JP NNN. -/
def Obligations.JumpGoesToItsAddress : Prop :=
  ∀ (s : State) (nnn : Addr), ∃ t, exec (.jp nnn) s = .next t ∧ t.pc = nnn ∧ Frame { pc := true } s t

/-- R108: JP V0, NNN adds V0, whatever the nibble in the place of X, mod 4096; VF is unchanged. -/
def Obligations.IndexedJumpAddsV0 : Prop :=
  ∀ (s : State) (nnn : Addr), ∃ t, exec (.jpV0 nnn) s = .next t ∧
    t.pc.toNat = ((s.getV 0).toNat + nnn.toNat) % 4096 ∧ Frame { pc := true } s t

/-- R101: RET pops `PC`; with an empty stack it raises StackUnderflow and changes nothing else. -/
def Obligations.ReturnPopsOrUnderflows : Prop :=
  ∀ s : State,
    (s.sp ≠ 0 → ∃ t, exec .ret s = .next t ∧ t.pc = s.stack.getD (s.sp - 1) 0 ∧ t.sp = s.sp - 1 ∧
      Frame { pc := true, sp := true } s t) ∧
    (s.sp = 0 → ∃ t, exec .ret s = .next t ∧ t.halt = true ∧ t.cause = .stackUnderflow ∧
      Frame { halt := true } s t)

/-- R103: CALL pushes the post-fetch `PC` and jumps; with a full stack it raises StackOverflow and changes
nothing else. The premise is the part of the invariant that gives the stack its `STACK_DEPTH` entries. -/
def Obligations.CallPushesOrOverflows : Prop :=
  ∀ (s : State) (nnn : Addr), s.stack.length = s.cfg.stackDepth →
    (s.sp < s.cfg.stackDepth → ∃ t, exec (.call nnn) s = .next t ∧ t.pc = nnn ∧ t.sp = s.sp + 1 ∧
      t.stack[s.sp]? = some s.pc ∧ (∀ j, j ≠ s.sp → t.stack[j]? = s.stack[j]?) ∧
      Frame { pc := true, sp := true, stack := true } s t) ∧
    (s.sp = s.cfg.stackDepth → ∃ t, exec (.call nnn) s = .next t ∧ t.halt = true ∧ t.cause = .stackOverflow ∧
      Frame { halt := true } s t)

/-- Executes a CALL at each of the given post-fetch addresses, in order. -/
def callAll : List (Addr × Addr) → State → Host.Outcome State Fault Refusal
  | [], s => .next s
  | (a, nnn) :: cs, s =>
    match exec (.call nnn) (s.setPc a) with
    | .next t => callAll cs t
    | o => o

/-- Executes `n` RETs and lists the `PC` each one leaves. -/
def returnAll : Nat → State → Option (List Addr × State)
  | 0, s => some ([], s)
  | n + 1, s =>
    match exec .ret s with
    | .next t => (returnAll n t).map fun p => (t.pc :: p.1, p.2)
    | _ => none

/-- R101, R103: calls nested to any depth that does not overflow are undone by as many returns, each going
back to the instruction after its own call, last call first. -/
def Obligations.NestedCallsReturnInReverse : Prop :=
  ∀ (cs : List (Addr × Addr)) (s : State), s.stack.length = s.cfg.stackDepth → s.sp + cs.length ≤ s.cfg.stackDepth →
    ∃ t, callAll cs s = .next t ∧ t.sp = s.sp + cs.length ∧
      ∃ u, returnAll cs.length t = some ((cs.map Prod.fst).reverse, u) ∧ u.sp = s.sp

/-- R104 to R107: the comparing skips add 2 to `PC` exactly when their condition holds; `5XYn` and `9XYn`
with `n` not 0 are decode misses, not skips. -/
def Obligations.SkipsCompareOperands : Prop :=
  (∀ w : Word, leadingNibble w = 5 ∨ leadingNibble w = 9 → (fieldsOf w).n ≠ 0 → decode w = .miss) ∧
  ∀ (s : State) (x y : Reg) (nn : Byte),
    (∃ t, exec (.seImm x nn) s = .next t ∧ t.pc = (if s.getV x = nn then s.pc + 2 else s.pc) ∧
      Frame { pc := true } s t) ∧
    (∃ t, exec (.sneImm x nn) s = .next t ∧ t.pc = (if s.getV x = nn then s.pc else s.pc + 2) ∧
      Frame { pc := true } s t) ∧
    (∃ t, exec (.seReg x y) s = .next t ∧ t.pc = (if s.getV x = s.getV y then s.pc + 2 else s.pc) ∧
      Frame { pc := true } s t) ∧
    (∃ t, exec (.sneReg x y) s = .next t ∧ t.pc = (if s.getV x = s.getV y then s.pc else s.pc + 2) ∧
      Frame { pc := true } s t)

/-- R150, R151, R156: the key skips look at the key whose index is the low four bits of Vx. -/
def Obligations.KeySkipsReadTheLatch : Prop :=
  ∀ (s : State) (x : Reg) (k : Key), k.val = (s.getV x).toNat % 16 →
    (∃ t, exec (.skp x) s = .next t ∧ t.pc = (if s.getKey k then s.pc + 2 else s.pc) ∧ Frame { pc := true } s t) ∧
    (∃ t, exec (.sknp x) s = .next t ∧ t.pc = (if s.getKey k then s.pc else s.pc + 2) ∧ Frame { pc := true } s t)

/-- R25: where `PC` is after every instruction. -/
def Obligations.PcFollowsTheAdvanceTable : Prop :=
  ∀ (i : Instr) (s t : State), exec i s = .next t → t.pc = pcAfter i s

/-! ### Load, arithmetic, logic, shift, random -/

/-- R112, R113: LD Vx, NN and ADD Vx, NN, which wraps mod 256 and sets no flag. -/
def Obligations.ImmediateLoadAndAdd : Prop :=
  ∀ (s : State) (x : Reg) (nn : Byte),
    (∃ t, exec (.ldImm x nn) s = .next t ∧ t.getV x = nn ∧ Frame { regs := [x] } s t) ∧
    (∃ t, exec (.addImm x nn) s = .next t ∧ (t.getV x).toNat = ((s.getV x).toNat + nn.toNat) % 256 ∧
      Frame { regs := [x] } s t)

/-- R114 to R117: move and bitwise logic, bit by bit; no flag changes. -/
def Obligations.MoveAndLogicChangeNoFlag : Prop :=
  ∀ (s : State) (x y : Reg),
    (∃ t, exec (.ldReg x y) s = .next t ∧ t.getV x = s.getV y ∧ Frame { regs := [x] } s t) ∧
    (∃ t, exec (.or x y) s = .next t ∧ (∀ j, (t.getV x).getLsbD j = ((s.getV x).getLsbD j || (s.getV y).getLsbD j)) ∧
      Frame { regs := [x] } s t) ∧
    (∃ t, exec (.and x y) s = .next t ∧ (∀ j, (t.getV x).getLsbD j = ((s.getV x).getLsbD j && (s.getV y).getLsbD j)) ∧
      Frame { regs := [x] } s t) ∧
    (∃ t, exec (.xor x y) s = .next t ∧ (∀ j, (t.getV x).getLsbD j = ((s.getV x).getLsbD j ^^ (s.getV y).getLsbD j)) ∧
      Frame { regs := [x] } s t)

/-- R118, R110: the result is the sum mod 256, also when the destination is VF; otherwise VF is the
carry. Both operands are the values before the instruction. -/
def Obligations.AddWritesSumAndCarry : Prop :=
  ∀ (s : State) (x y : Reg), ∃ t, exec (.addReg x y) s = .next t ∧
    (t.getV x).toNat = ((s.getV x).toNat + (s.getV y).toNat) % 256 ∧
    (x ≠ VF → t.getV VF = if 255 < (s.getV x).toNat + (s.getV y).toNat then 1 else 0) ∧
    Frame { regs := [x, VF] } s t

/-- R119, R121, R110: the subtractions wrap mod 256; VF is 1 exactly when the minuend is strictly greater,
unless the destination is VF. -/
def Obligations.SubtractionsWriteNoBorrow : Prop :=
  ∀ (s : State) (x y : Reg),
    (∃ t, exec (.sub x y) s = .next t ∧
      (t.getV x).toNat = ((s.getV x).toNat + 256 - (s.getV y).toNat) % 256 ∧
      (x ≠ VF → t.getV VF = if (s.getV y).toNat < (s.getV x).toNat then 1 else 0) ∧
      Frame { regs := [x, VF] } s t) ∧
    (∃ t, exec (.subn x y) s = .next t ∧
      (t.getV x).toNat = ((s.getV y).toNat + 256 - (s.getV x).toNat) % 256 ∧
      (x ≠ VF → t.getV VF = if (s.getV x).toNat < (s.getV y).toNat then 1 else 0) ∧
      Frame { regs := [x, VF] } s t)

/-- R120, R123, R110: the shifts move Vx by one bit in place, mod 256, whatever Vy is; VF is the bit
shifted out, unless the destination is VF. -/
def Obligations.ShiftsMoveOneBitInPlace : Prop :=
  ∀ (s : State) (x y : Reg),
    (∃ t, exec (.shr x y) s = .next t ∧ (t.getV x).toNat = (s.getV x).toNat / 2 ∧
      (x ≠ VF → (t.getV VF).toNat = (s.getV x).toNat % 2) ∧ Frame { regs := [x, VF] } s t) ∧
    (∃ t, exec (.shl x y) s = .next t ∧ (t.getV x).toNat = 2 * (s.getV x).toNat % 256 ∧
      (x ≠ VF → (t.getV VF).toNat = (s.getV x).toNat / 128) ∧ Frame { regs := [x, VF] } s t)

/-- R124: RND masks the byte the environment supplies, whatever it is; the next draw is another
one. That a draw is the free value at a counter is the model's form of it (assumption 5). -/
def Obligations.RandomByteIsMasked : Prop :=
  ∀ (s : State) (x : Reg) (nn : Byte), ∃ t, exec (.rnd x nn) s = .next t ∧
    t.getV x = Config.rndByte s.draws &&& nn ∧ t.getV x &&& ~~~nn = 0 ∧ t.draws = s.draws + 1 ∧
    Frame { regs := [x], draws := true } s t

/-- R22: an instruction that is not one of the six flag setters leaves VF alone unless VF is among its
ordinary destinations. -/
def Obligations.OnlyListedInstructionsTouchVF : Prop :=
  ∀ (i : Instr) (s t : State), exec i s = .next t → setsFlag i = false → VF ∉ destRegs i → t.getV VF = s.getV VF

/-! ### Index register and memory -/

/-- R131 to R133: the three instructions that write `I`, each mod 4096; no flag changes. -/
def Obligations.IndexInstructionsWriteI : Prop :=
  ∀ (s : State) (x : Reg) (nnn : Addr),
    (∃ t, exec (.ldI nnn) s = .next t ∧ t.i = nnn ∧ Frame { i := true } s t) ∧
    (∃ t, exec (.addI x) s = .next t ∧ t.i.toNat = (s.i.toNat + (s.getV x).toNat) % 4096 ∧ Frame { i := true } s t) ∧
    (∃ t, exec (.ldF x) s = .next t ∧ t.i.toNat = (0x050 + 5 * (s.getV x).toNat) % 4096 ∧ Frame { i := true } s t)

/-- R134: LD B stores the hundreds, tens and ones digits at `I`, `I + 1`, `I + 2`, mod 4096, and no other
byte. -/
def Obligations.DecimalDigitsAreStored : Prop :=
  ∀ (s : State) (x : Reg), ∃ t, exec (.ldB x) s = .next t ∧
    (t.memRead (s.effAddr 0)).toNat = (s.getV x).toNat / 100 ∧
    (t.memRead (s.effAddr 1)).toNat = (s.getV x).toNat / 10 % 10 ∧
    (t.memRead (s.effAddr 2)).toNat = (s.getV x).toNat % 10 ∧
    Frame { mem := [s.effAddr 0, s.effAddr 1, s.effAddr 2] } s t

/-- R135: a register dump stores V0..VX, inclusive, at `I + 0` .. `I + X`, mod 4096, and no other byte;
`I` is unchanged. -/
def Obligations.DumpStoresTheRegisters : Prop :=
  ∀ (s : State) (x : Reg), ∃ t, exec (.dump x) s = .next t ∧
    (∀ k : Reg, k ≤ x → t.memRead (s.effAddr k.val) = s.getV k) ∧
    Frame { mem := storedAddrs (.dump x) s } s t

/-- R136: a register load fills V0..VX, inclusive, from `I + 0` .. `I + X`, mod 4096; the registers above
VX and `I` are unchanged. -/
def Obligations.LoadFillsTheRegisters : Prop :=
  ∀ (s : State) (x : Reg), ∃ t, exec (.load x) s = .next t ∧
    (∀ k : Reg, k ≤ x → t.getV k = s.memRead (s.effAddr k.val)) ∧ Frame { regs := regsUpTo x } s t

/-- The document's property (R136): dumping V0..VX and then loading them back, from whatever registers
stand there by then, reproduces their values. -/
def Obligations.DumpThenLoadRestoresRegisters : Prop :=
  ∀ (s t : State) (x : Reg) (regs : Vector Byte 16), exec (.dump x) s = .next t →
    ∃ u, exec (.load x) { t with v := regs } = .next u ∧ ∀ k : Reg, k ≤ x → u.getV k = s.getV k

/-- R53: a byte written is the byte read at that address, mod 4096, and no other byte changes; nothing else
changes. -/
def Obligations.MemoryReadsWhatWasWritten : Prop :=
  ∀ (s : State) (a a' : Nat) (b : Byte),
    (s.memWrite a b).memRead a' = (if a' % 4096 = a % 4096 then b else s.memRead a') ∧
    s.memWrite a b = { s with mem := (s.memWrite a b).mem }

/-- R64: bytes an instruction stored are what a fetch from their address reads, with nothing in between. -/
def Obligations.StoredBytesAreFetched : Prop :=
  ∀ (s t : State) (x : Reg), exec (.dump x) s = .next t → 1 ≤ x →
    (t.setPc s.i).fetch = wordOf (s.getV 0) (s.getV 1)

/-- R57, R50: an instruction writes no byte of memory outside the addresses it stores to, and only LD B
and LD [I] store. -/
def Obligations.OnlyStoresWriteMemory : Prop :=
  ∀ (i : Instr) (s t : State) (a : Nat), exec i s = .next t → a % 4096 ∉ storedAddrs i s → t.memRead a = s.memRead a

/-! ### Display -/

/-- R140: the raster primitives, total over all coordinates. -/
def Obligations.RasterPrimitives : Prop :=
  ∀ (s : State) (x y p q : Nat) (b : Bool),
    s.pixClear.pixGet p q = false ∧ (¬(x < 64 ∧ y < 32) → s.pixGet x y = false ∧ s.pixSet x y b = s) ∧
    (s.pixSet x y b).pixGet p q = (if p = x ∧ q = y ∧ x < 64 ∧ y < 32 then b else s.pixGet p q) ∧
    s.pixSet x y b = { s with fb := (s.pixSet x y b).fb }

/-- R142: CLS sets every pixel OFF; VF is unchanged. -/
def Obligations.ClearTurnsEveryPixelOff : Prop :=
  ∀ s : State, ∃ t, exec .cls s = .next t ∧ (∀ x y, t.pixGet x y = false) ∧ Frame { fb := true } s t

/-- R143: DRW inverts exactly the cells of the grid under set sprite bits, its origin taken mod 64 and
mod 32 from Vx and Vy as they were before; VF is 1 exactly when one of those cells was ON, else 0. -/
def Obligations.DrawXorsTheSprite : Prop :=
  ∀ (s : State) (x y : Reg) (n : BitVec 4), ∃ t, exec (.drw x y n) s = .next t ∧
    (∀ p q, p < 64 → q < 32 → t.pixGet p q =
      (s.pixGet p q ^^ s.spriteBit ((s.getV x).toNat % 64) ((s.getV y).toNat % 32) n.toNat p q)) ∧
    (t.getV VF = 0 ∨ t.getV VF = 1) ∧
    (t.getV VF = 1 ↔ ∃ p q, p < 64 ∧ q < 32 ∧ s.pixGet p q = true ∧
      s.spriteBit ((s.getV x).toNat % 64) ((s.getV y).toNat % 32) n.toNat p q = true) ∧
    Frame { regs := [VF], fb := true } s t

/-- R144 (a): with the same origin, `I` and sprite bytes, a second DRW gives every cell back, and its VF
is 1 exactly when a set sprite bit falls on a cell the first DRW left ON. The origin's registers are not
VF, which the first DRW writes. -/
def Obligations.DrawTwiceRestoresTheRaster : Prop :=
  ∀ (s t : State) (x y : Reg) (n : BitVec 4), x ≠ VF → y ≠ VF → exec (.drw x y n) s = .next t →
    ∃ u, exec (.drw x y n) t = .next u ∧ (∀ p q, u.pixGet p q = s.pixGet p q) ∧
      (u.getV VF = 1 ↔ ∃ p q, p < 64 ∧ q < 32 ∧ s.pixGet p q = false ∧
        s.spriteBit ((s.getV x).toNat % 64) ((s.getV y).toNat % 32) n.toNat p q = true)

/-! ### Keypad and timers -/

/-- R152: LD Vx, K takes the lowest pressed key; with none pressed it only rewinds `PC` by 2. -/
def Obligations.KeyWaitTakesLowestKeyOrRewinds : Prop :=
  ∀ (s : State) (x : Reg),
    (∀ k : Key, s.getKey k = true → (∀ j : Key, j < k → s.getKey j = false) →
      ∃ t, exec (.ldVxK x) s = .next t ∧ (t.getV x).toNat = k.val ∧ Frame { regs := [x] } s t) ∧
    ((∀ k : Key, s.getKey k = false) →
      ∃ t, exec (.ldVxK x) s = .next t ∧ t.pc = s.pc - 2 ∧ Frame { pc := true } s t)

/-- R153 to R155, R178: the timer moves; `TONE` follows the sound timer at once. -/
def Obligations.TimerMovesCopyTheTimers : Prop :=
  ∀ (s : State) (x : Reg),
    (∃ t, exec (.ldVxDt x) s = .next t ∧ t.getV x = s.dt ∧ Frame { regs := [x] } s t) ∧
    (∃ t, exec (.ldDtVx x) s = .next t ∧ t.dt = s.getV x ∧ Frame { dt := true } s t) ∧
    (∃ t, exec (.ldStVx x) s = .next t ∧ t.st = s.getV x ∧ (t.tone = true ↔ s.getV x ≠ 0) ∧ Frame { st := true } s t)

/-- R31, R35, R36, R181: no instruction changes the key latch, the watchdog registers, the configuration,
the pending events or the diagnostics. The configuration as a field of the state, the queue of pending
events and the list of diagnostics are the model's own (assumptions 2, 1, 8). -/
def Obligations.InstructionsLeaveHostStateAlone : Prop :=
  ∀ (i : Instr) (s t : State), exec i s = .next t →
    t.key = s.key ∧ t.wdLast = s.wdLast ∧ t.wdCnt = s.wdCnt ∧ t.cfg = s.cfg ∧ t.inputs = s.inputs ∧ t.diag = s.diag
end

