-- ==== Sys2Proof/Laws/Encoding.lean ====
section
/-! SUPPORT. What the encoder's formats put into the fields of a word (R72, R73), and the row of R75
that each format selects. -/

namespace Sys2Proof

theorem leadingNibble_encodeNNN (op : BitVec 4) (nnn : Addr) : leadingNibble (encodeNNN op nnn) = op.toNat := by
  simp only [leadingNibble, encodeNNN, BitVec.extractLsb'_append_eq_left]

theorem nnn_encodeNNN (op : BitVec 4) (nnn : Addr) : (fieldsOf (encodeNNN op nnn)).nnn = nnn := by
  simp only [fieldsOf, encodeNNN, BitVec.extractLsb'_append_eq_right]

/-- The fields of format `XNN`. -/
theorem leadingNibble_encodeXNN (op : BitVec 4) (x : Reg) (nn : Byte) :
    leadingNibble (encodeXNN op x nn) = op.toNat := by
  simp only [leadingNibble, encodeXNN]
  rw [BitVec.extractLsb'_append_eq_of_le (by decide)]
  exact congrArg BitVec.toNat BitVec.extractLsb'_append_eq_left

theorem x_encodeXNN (op : BitVec 4) (x : Reg) (nn : Byte) : (fieldsOf (encodeXNN op x nn)).x = x := by
  simp only [fieldsOf, encodeXNN]
  rw [BitVec.extractLsb'_append_eq_of_le (by decide)]
  exact congrArg BitVec.toFin BitVec.extractLsb'_append_eq_right

theorem nn_encodeXNN (op : BitVec 4) (x : Reg) (nn : Byte) : (fieldsOf (encodeXNN op x nn)).nn = nn := by
  simp only [fieldsOf, encodeXNN, BitVec.extractLsb'_append_eq_right]

/-- The fields of formats `XY` and `XYN`. -/
theorem leadingNibble_encodeXY (op : BitVec 4) (x y : Reg) (n : BitVec 4) :
    leadingNibble (encodeXY op x y n) = op.toNat := by
  simp only [leadingNibble, encodeXY]
  rw [BitVec.extractLsb'_append_eq_of_le (by decide), BitVec.extractLsb'_append_eq_of_le (by decide)]
  exact congrArg BitVec.toNat BitVec.extractLsb'_append_eq_left

theorem x_encodeXY (op : BitVec 4) (x y : Reg) (n : BitVec 4) : (fieldsOf (encodeXY op x y n)).x = x := by
  simp only [fieldsOf, encodeXY]
  rw [BitVec.extractLsb'_append_eq_of_le (by decide), BitVec.extractLsb'_append_eq_of_le (by decide)]
  exact congrArg BitVec.toFin BitVec.extractLsb'_append_eq_right

theorem y_encodeXY (op : BitVec 4) (x y : Reg) (n : BitVec 4) : (fieldsOf (encodeXY op x y n)).y = y := by
  simp only [fieldsOf, encodeXY]
  rw [BitVec.extractLsb'_append_eq_of_le (by decide)]
  exact congrArg BitVec.toFin BitVec.extractLsb'_append_eq_right

theorem n_encodeXY (op : BitVec 4) (x y : Reg) (n : BitVec 4) : (fieldsOf (encodeXY op x y n)).n = n := by
  simp only [fieldsOf, encodeXY, BitVec.extractLsb'_append_eq_right]

/-- The bits that masks F000, F00F and F0FF leave of the formats. -/
theorem encodeNNN_row (op : BitVec 4) (nnn : Addr) : encodeNNN op nnn &&& 0xF000 = op ++ (0 : BitVec 12) := by
  rw [encodeNNN, show (0xF000 : Word) = (0xF : BitVec 4) ++ (0 : BitVec 12) from rfl, BitVec.and_append,
    show (0xF : BitVec 4) = BitVec.allOnes 4 from rfl]
  simp only [BitVec.and_allOnes, BitVec.and_zero, BitVec.ofNat_eq_ofNat]

theorem encodeXNN_row (op : BitVec 4) (x : Reg) (nn : Byte) :
    encodeXNN op x nn &&& 0xF000 = op ++ (0 : BitVec 4) ++ (0 : BitVec 8) := by
  rw [encodeXNN, show (0xF000 : Word) = (0xF : BitVec 4) ++ (0 : BitVec 4) ++ (0 : BitVec 8) from rfl,
    BitVec.and_append, BitVec.and_append, show (0xF : BitVec 4) = BitVec.allOnes 4 from rfl]
  simp only [BitVec.and_allOnes, BitVec.and_zero, BitVec.ofNat_eq_ofNat]

theorem encodeXNN_row_low (op : BitVec 4) (x : Reg) (nn : Byte) :
    encodeXNN op x nn &&& 0xF0FF = op ++ (0 : BitVec 4) ++ nn := by
  rw [encodeXNN, show (0xF0FF : Word) = (0xF : BitVec 4) ++ (0 : BitVec 4) ++ (0xFF : BitVec 8) from rfl,
    BitVec.and_append, BitVec.and_append, show (0xF : BitVec 4) = BitVec.allOnes 4 from rfl,
    show (0xFF : BitVec 8) = BitVec.allOnes 8 from rfl]
  simp only [BitVec.and_allOnes, BitVec.and_zero, BitVec.ofNat_eq_ofNat]

theorem encodeXY_row (op : BitVec 4) (x y : Reg) (n : BitVec 4) :
    encodeXY op x y n &&& 0xF000 = op ++ (0 : BitVec 4) ++ (0 : BitVec 4) ++ (0 : BitVec 4) := by
  rw [encodeXY, show (0xF000 : Word) = (0xF : BitVec 4) ++ (0 : BitVec 4) ++ (0 : BitVec 4) ++ (0 : BitVec 4) from rfl,
    BitVec.and_append, BitVec.and_append, BitVec.and_append, show (0xF : BitVec 4) = BitVec.allOnes 4 from rfl]
  simp only [BitVec.and_allOnes, BitVec.and_zero, BitVec.ofNat_eq_ofNat]

theorem encodeXY_row_low (op : BitVec 4) (x y : Reg) (n : BitVec 4) :
    encodeXY op x y n &&& 0xF00F = op ++ (0 : BitVec 4) ++ (0 : BitVec 4) ++ n := by
  rw [encodeXY, show (0xF00F : Word) = (0xF : BitVec 4) ++ (0 : BitVec 4) ++ (0 : BitVec 4) ++ (0xF : BitVec 4) from rfl,
    BitVec.and_append, BitVec.and_append, BitVec.and_append, show (0xF : BitVec 4) = BitVec.allOnes 4 from rfl]
  simp only [BitVec.and_allOnes, BitVec.and_zero, BitVec.ofNat_eq_ofNat]

end Sys2Proof
end

