-- ==== Sys2Proof/Laws/State.lean ====
section
/-! SUPPORT. One lemma per field (and per accessor) of each named update of the state, so that no later
proof unfolds a record update. -/

namespace Sys2Proof.Machine

/-! ### `setV` -/

@[simp] theorem State.setV_i (s : State) (x : Reg) (b : Byte) : (s.setV x b).i = s.i := rfl
@[simp] theorem State.setV_pc (s : State) (x : Reg) (b : Byte) : (s.setV x b).pc = s.pc := rfl
@[simp] theorem State.setV_sp (s : State) (x : Reg) (b : Byte) : (s.setV x b).sp = s.sp := rfl
@[simp] theorem State.setV_stack (s : State) (x : Reg) (b : Byte) : (s.setV x b).stack = s.stack := rfl
@[simp] theorem State.setV_dt (s : State) (x : Reg) (b : Byte) : (s.setV x b).dt = s.dt := rfl
@[simp] theorem State.setV_st (s : State) (x : Reg) (b : Byte) : (s.setV x b).st = s.st := rfl
@[simp] theorem State.setV_key (s : State) (x : Reg) (b : Byte) : (s.setV x b).key = s.key := rfl
@[simp] theorem State.setV_mem (s : State) (x : Reg) (b : Byte) : (s.setV x b).mem = s.mem := rfl
@[simp] theorem State.setV_fb (s : State) (x : Reg) (b : Byte) : (s.setV x b).fb = s.fb := rfl
@[simp] theorem State.setV_halt (s : State) (x : Reg) (b : Byte) : (s.setV x b).halt = s.halt := rfl
@[simp] theorem State.setV_cause (s : State) (x : Reg) (b : Byte) : (s.setV x b).cause = s.cause := rfl
@[simp] theorem State.setV_wdLast (s : State) (x : Reg) (b : Byte) : (s.setV x b).wdLast = s.wdLast := rfl
@[simp] theorem State.setV_wdCnt (s : State) (x : Reg) (b : Byte) : (s.setV x b).wdCnt = s.wdCnt := rfl
@[simp] theorem State.setV_cfg (s : State) (x : Reg) (b : Byte) : (s.setV x b).cfg = s.cfg := rfl
@[simp] theorem State.setV_inputs (s : State) (x : Reg) (b : Byte) : (s.setV x b).inputs = s.inputs := rfl
@[simp] theorem State.setV_draws (s : State) (x : Reg) (b : Byte) : (s.setV x b).draws = s.draws := rfl
@[simp] theorem State.setV_diag (s : State) (x : Reg) (b : Byte) : (s.setV x b).diag = s.diag := rfl
@[simp] theorem State.setV_getKey (s : State) (x : Reg) (b : Byte) (j : Key) : (s.setV x b).getKey j = s.getKey j := rfl
@[simp] theorem State.setV_memRead (s : State) (x : Reg) (b : Byte) (n : Nat) : (s.setV x b).memRead n = s.memRead n := rfl
@[simp] theorem State.setV_pixGet (s : State) (x : Reg) (b : Byte) (p q : Nat) : (s.setV x b).pixGet p q = s.pixGet p q := rfl
@[simp] theorem State.setV_effAddr (s : State) (x : Reg) (b : Byte) (n : Nat) : (s.setV x b).effAddr n = s.effAddr n := rfl

/-! ### `setI` -/

@[simp] theorem State.setI_v (s : State) (a : Addr) : (s.setI a).v = s.v := rfl
@[simp] theorem State.setI_i (s : State) (a : Addr) : (s.setI a).i = a := rfl
@[simp] theorem State.setI_pc (s : State) (a : Addr) : (s.setI a).pc = s.pc := rfl
@[simp] theorem State.setI_sp (s : State) (a : Addr) : (s.setI a).sp = s.sp := rfl
@[simp] theorem State.setI_stack (s : State) (a : Addr) : (s.setI a).stack = s.stack := rfl
@[simp] theorem State.setI_dt (s : State) (a : Addr) : (s.setI a).dt = s.dt := rfl
@[simp] theorem State.setI_st (s : State) (a : Addr) : (s.setI a).st = s.st := rfl
@[simp] theorem State.setI_key (s : State) (a : Addr) : (s.setI a).key = s.key := rfl
@[simp] theorem State.setI_mem (s : State) (a : Addr) : (s.setI a).mem = s.mem := rfl
@[simp] theorem State.setI_fb (s : State) (a : Addr) : (s.setI a).fb = s.fb := rfl
@[simp] theorem State.setI_halt (s : State) (a : Addr) : (s.setI a).halt = s.halt := rfl
@[simp] theorem State.setI_cause (s : State) (a : Addr) : (s.setI a).cause = s.cause := rfl
@[simp] theorem State.setI_wdLast (s : State) (a : Addr) : (s.setI a).wdLast = s.wdLast := rfl
@[simp] theorem State.setI_wdCnt (s : State) (a : Addr) : (s.setI a).wdCnt = s.wdCnt := rfl
@[simp] theorem State.setI_cfg (s : State) (a : Addr) : (s.setI a).cfg = s.cfg := rfl
@[simp] theorem State.setI_inputs (s : State) (a : Addr) : (s.setI a).inputs = s.inputs := rfl
@[simp] theorem State.setI_draws (s : State) (a : Addr) : (s.setI a).draws = s.draws := rfl
@[simp] theorem State.setI_diag (s : State) (a : Addr) : (s.setI a).diag = s.diag := rfl
@[simp] theorem State.setI_getV (s : State) (a : Addr) (r : Reg) : (s.setI a).getV r = s.getV r := rfl
@[simp] theorem State.setI_getKey (s : State) (a : Addr) (j : Key) : (s.setI a).getKey j = s.getKey j := rfl
@[simp] theorem State.setI_memRead (s : State) (a : Addr) (n : Nat) : (s.setI a).memRead n = s.memRead n := rfl
@[simp] theorem State.setI_pixGet (s : State) (a : Addr) (p q : Nat) : (s.setI a).pixGet p q = s.pixGet p q := rfl

/-! ### `setPc` -/

@[simp] theorem State.setPc_v (s : State) (a : Addr) : (s.setPc a).v = s.v := rfl
@[simp] theorem State.setPc_i (s : State) (a : Addr) : (s.setPc a).i = s.i := rfl
@[simp] theorem State.setPc_pc (s : State) (a : Addr) : (s.setPc a).pc = a := rfl
@[simp] theorem State.setPc_sp (s : State) (a : Addr) : (s.setPc a).sp = s.sp := rfl
@[simp] theorem State.setPc_stack (s : State) (a : Addr) : (s.setPc a).stack = s.stack := rfl
@[simp] theorem State.setPc_dt (s : State) (a : Addr) : (s.setPc a).dt = s.dt := rfl
@[simp] theorem State.setPc_st (s : State) (a : Addr) : (s.setPc a).st = s.st := rfl
@[simp] theorem State.setPc_key (s : State) (a : Addr) : (s.setPc a).key = s.key := rfl
@[simp] theorem State.setPc_mem (s : State) (a : Addr) : (s.setPc a).mem = s.mem := rfl
@[simp] theorem State.setPc_fb (s : State) (a : Addr) : (s.setPc a).fb = s.fb := rfl
@[simp] theorem State.setPc_halt (s : State) (a : Addr) : (s.setPc a).halt = s.halt := rfl
@[simp] theorem State.setPc_cause (s : State) (a : Addr) : (s.setPc a).cause = s.cause := rfl
@[simp] theorem State.setPc_wdLast (s : State) (a : Addr) : (s.setPc a).wdLast = s.wdLast := rfl
@[simp] theorem State.setPc_wdCnt (s : State) (a : Addr) : (s.setPc a).wdCnt = s.wdCnt := rfl
@[simp] theorem State.setPc_cfg (s : State) (a : Addr) : (s.setPc a).cfg = s.cfg := rfl
@[simp] theorem State.setPc_inputs (s : State) (a : Addr) : (s.setPc a).inputs = s.inputs := rfl
@[simp] theorem State.setPc_draws (s : State) (a : Addr) : (s.setPc a).draws = s.draws := rfl
@[simp] theorem State.setPc_diag (s : State) (a : Addr) : (s.setPc a).diag = s.diag := rfl
@[simp] theorem State.setPc_getV (s : State) (a : Addr) (r : Reg) : (s.setPc a).getV r = s.getV r := rfl
@[simp] theorem State.setPc_getKey (s : State) (a : Addr) (j : Key) : (s.setPc a).getKey j = s.getKey j := rfl
@[simp] theorem State.setPc_memRead (s : State) (a : Addr) (n : Nat) : (s.setPc a).memRead n = s.memRead n := rfl
@[simp] theorem State.setPc_pixGet (s : State) (a : Addr) (p q : Nat) : (s.setPc a).pixGet p q = s.pixGet p q := rfl
@[simp] theorem State.setPc_effAddr (s : State) (a : Addr) (n : Nat) : (s.setPc a).effAddr n = s.effAddr n := rfl

/-! ### `advancePc` -/

@[simp] theorem State.advancePc_v (s : State) : (s.advancePc).v = s.v := rfl
@[simp] theorem State.advancePc_i (s : State) : (s.advancePc).i = s.i := rfl
@[simp] theorem State.advancePc_pc (s : State) : (s.advancePc).pc = s.pc + 2 := rfl
@[simp] theorem State.advancePc_sp (s : State) : (s.advancePc).sp = s.sp := rfl
@[simp] theorem State.advancePc_stack (s : State) : (s.advancePc).stack = s.stack := rfl
@[simp] theorem State.advancePc_dt (s : State) : (s.advancePc).dt = s.dt := rfl
@[simp] theorem State.advancePc_st (s : State) : (s.advancePc).st = s.st := rfl
@[simp] theorem State.advancePc_key (s : State) : (s.advancePc).key = s.key := rfl
@[simp] theorem State.advancePc_mem (s : State) : (s.advancePc).mem = s.mem := rfl
@[simp] theorem State.advancePc_fb (s : State) : (s.advancePc).fb = s.fb := rfl
@[simp] theorem State.advancePc_halt (s : State) : (s.advancePc).halt = s.halt := rfl
@[simp] theorem State.advancePc_cause (s : State) : (s.advancePc).cause = s.cause := rfl
@[simp] theorem State.advancePc_wdLast (s : State) : (s.advancePc).wdLast = s.wdLast := rfl
@[simp] theorem State.advancePc_wdCnt (s : State) : (s.advancePc).wdCnt = s.wdCnt := rfl
@[simp] theorem State.advancePc_cfg (s : State) : (s.advancePc).cfg = s.cfg := rfl
@[simp] theorem State.advancePc_inputs (s : State) : (s.advancePc).inputs = s.inputs := rfl
@[simp] theorem State.advancePc_draws (s : State) : (s.advancePc).draws = s.draws := rfl
@[simp] theorem State.advancePc_diag (s : State) : (s.advancePc).diag = s.diag := rfl
@[simp] theorem State.advancePc_getV (s : State) (r : Reg) : (s.advancePc).getV r = s.getV r := rfl
@[simp] theorem State.advancePc_getKey (s : State) (j : Key) : (s.advancePc).getKey j = s.getKey j := rfl
@[simp] theorem State.advancePc_memRead (s : State) (n : Nat) : (s.advancePc).memRead n = s.memRead n := rfl
@[simp] theorem State.advancePc_pixGet (s : State) (p q : Nat) : (s.advancePc).pixGet p q = s.pixGet p q := rfl
@[simp] theorem State.advancePc_effAddr (s : State) (n : Nat) : (s.advancePc).effAddr n = s.effAddr n := rfl

/-! ### `rewindPc` -/

@[simp] theorem State.rewindPc_v (s : State) : (s.rewindPc).v = s.v := rfl
@[simp] theorem State.rewindPc_i (s : State) : (s.rewindPc).i = s.i := rfl
@[simp] theorem State.rewindPc_pc (s : State) : (s.rewindPc).pc = s.pc - 2 := rfl
@[simp] theorem State.rewindPc_sp (s : State) : (s.rewindPc).sp = s.sp := rfl
@[simp] theorem State.rewindPc_stack (s : State) : (s.rewindPc).stack = s.stack := rfl
@[simp] theorem State.rewindPc_dt (s : State) : (s.rewindPc).dt = s.dt := rfl
@[simp] theorem State.rewindPc_st (s : State) : (s.rewindPc).st = s.st := rfl
@[simp] theorem State.rewindPc_key (s : State) : (s.rewindPc).key = s.key := rfl
@[simp] theorem State.rewindPc_mem (s : State) : (s.rewindPc).mem = s.mem := rfl
@[simp] theorem State.rewindPc_fb (s : State) : (s.rewindPc).fb = s.fb := rfl
@[simp] theorem State.rewindPc_halt (s : State) : (s.rewindPc).halt = s.halt := rfl
@[simp] theorem State.rewindPc_cause (s : State) : (s.rewindPc).cause = s.cause := rfl
@[simp] theorem State.rewindPc_wdLast (s : State) : (s.rewindPc).wdLast = s.wdLast := rfl
@[simp] theorem State.rewindPc_wdCnt (s : State) : (s.rewindPc).wdCnt = s.wdCnt := rfl
@[simp] theorem State.rewindPc_cfg (s : State) : (s.rewindPc).cfg = s.cfg := rfl
@[simp] theorem State.rewindPc_inputs (s : State) : (s.rewindPc).inputs = s.inputs := rfl
@[simp] theorem State.rewindPc_draws (s : State) : (s.rewindPc).draws = s.draws := rfl
@[simp] theorem State.rewindPc_diag (s : State) : (s.rewindPc).diag = s.diag := rfl
@[simp] theorem State.rewindPc_getV (s : State) (r : Reg) : (s.rewindPc).getV r = s.getV r := rfl
@[simp] theorem State.rewindPc_getKey (s : State) (j : Key) : (s.rewindPc).getKey j = s.getKey j := rfl
@[simp] theorem State.rewindPc_memRead (s : State) (n : Nat) : (s.rewindPc).memRead n = s.memRead n := rfl
@[simp] theorem State.rewindPc_pixGet (s : State) (p q : Nat) : (s.rewindPc).pixGet p q = s.pixGet p q := rfl
@[simp] theorem State.rewindPc_effAddr (s : State) (n : Nat) : (s.rewindPc).effAddr n = s.effAddr n := rfl

/-! ### `setDt` -/

@[simp] theorem State.setDt_v (s : State) (b : Byte) : (s.setDt b).v = s.v := rfl
@[simp] theorem State.setDt_i (s : State) (b : Byte) : (s.setDt b).i = s.i := rfl
@[simp] theorem State.setDt_pc (s : State) (b : Byte) : (s.setDt b).pc = s.pc := rfl
@[simp] theorem State.setDt_sp (s : State) (b : Byte) : (s.setDt b).sp = s.sp := rfl
@[simp] theorem State.setDt_stack (s : State) (b : Byte) : (s.setDt b).stack = s.stack := rfl
@[simp] theorem State.setDt_dt (s : State) (b : Byte) : (s.setDt b).dt = b := rfl
@[simp] theorem State.setDt_st (s : State) (b : Byte) : (s.setDt b).st = s.st := rfl
@[simp] theorem State.setDt_key (s : State) (b : Byte) : (s.setDt b).key = s.key := rfl
@[simp] theorem State.setDt_mem (s : State) (b : Byte) : (s.setDt b).mem = s.mem := rfl
@[simp] theorem State.setDt_fb (s : State) (b : Byte) : (s.setDt b).fb = s.fb := rfl
@[simp] theorem State.setDt_halt (s : State) (b : Byte) : (s.setDt b).halt = s.halt := rfl
@[simp] theorem State.setDt_cause (s : State) (b : Byte) : (s.setDt b).cause = s.cause := rfl
@[simp] theorem State.setDt_wdLast (s : State) (b : Byte) : (s.setDt b).wdLast = s.wdLast := rfl
@[simp] theorem State.setDt_wdCnt (s : State) (b : Byte) : (s.setDt b).wdCnt = s.wdCnt := rfl
@[simp] theorem State.setDt_cfg (s : State) (b : Byte) : (s.setDt b).cfg = s.cfg := rfl
@[simp] theorem State.setDt_inputs (s : State) (b : Byte) : (s.setDt b).inputs = s.inputs := rfl
@[simp] theorem State.setDt_draws (s : State) (b : Byte) : (s.setDt b).draws = s.draws := rfl
@[simp] theorem State.setDt_diag (s : State) (b : Byte) : (s.setDt b).diag = s.diag := rfl
@[simp] theorem State.setDt_getV (s : State) (b : Byte) (r : Reg) : (s.setDt b).getV r = s.getV r := rfl
@[simp] theorem State.setDt_getKey (s : State) (b : Byte) (j : Key) : (s.setDt b).getKey j = s.getKey j := rfl
@[simp] theorem State.setDt_memRead (s : State) (b : Byte) (n : Nat) : (s.setDt b).memRead n = s.memRead n := rfl
@[simp] theorem State.setDt_pixGet (s : State) (b : Byte) (p q : Nat) : (s.setDt b).pixGet p q = s.pixGet p q := rfl
@[simp] theorem State.setDt_effAddr (s : State) (b : Byte) (n : Nat) : (s.setDt b).effAddr n = s.effAddr n := rfl

/-! ### `setSt` -/

@[simp] theorem State.setSt_v (s : State) (b : Byte) : (s.setSt b).v = s.v := rfl
@[simp] theorem State.setSt_i (s : State) (b : Byte) : (s.setSt b).i = s.i := rfl
@[simp] theorem State.setSt_pc (s : State) (b : Byte) : (s.setSt b).pc = s.pc := rfl
@[simp] theorem State.setSt_sp (s : State) (b : Byte) : (s.setSt b).sp = s.sp := rfl
@[simp] theorem State.setSt_stack (s : State) (b : Byte) : (s.setSt b).stack = s.stack := rfl
@[simp] theorem State.setSt_dt (s : State) (b : Byte) : (s.setSt b).dt = s.dt := rfl
@[simp] theorem State.setSt_st (s : State) (b : Byte) : (s.setSt b).st = b := rfl
@[simp] theorem State.setSt_key (s : State) (b : Byte) : (s.setSt b).key = s.key := rfl
@[simp] theorem State.setSt_mem (s : State) (b : Byte) : (s.setSt b).mem = s.mem := rfl
@[simp] theorem State.setSt_fb (s : State) (b : Byte) : (s.setSt b).fb = s.fb := rfl
@[simp] theorem State.setSt_halt (s : State) (b : Byte) : (s.setSt b).halt = s.halt := rfl
@[simp] theorem State.setSt_cause (s : State) (b : Byte) : (s.setSt b).cause = s.cause := rfl
@[simp] theorem State.setSt_wdLast (s : State) (b : Byte) : (s.setSt b).wdLast = s.wdLast := rfl
@[simp] theorem State.setSt_wdCnt (s : State) (b : Byte) : (s.setSt b).wdCnt = s.wdCnt := rfl
@[simp] theorem State.setSt_cfg (s : State) (b : Byte) : (s.setSt b).cfg = s.cfg := rfl
@[simp] theorem State.setSt_inputs (s : State) (b : Byte) : (s.setSt b).inputs = s.inputs := rfl
@[simp] theorem State.setSt_draws (s : State) (b : Byte) : (s.setSt b).draws = s.draws := rfl
@[simp] theorem State.setSt_diag (s : State) (b : Byte) : (s.setSt b).diag = s.diag := rfl
@[simp] theorem State.setSt_getV (s : State) (b : Byte) (r : Reg) : (s.setSt b).getV r = s.getV r := rfl
@[simp] theorem State.setSt_getKey (s : State) (b : Byte) (j : Key) : (s.setSt b).getKey j = s.getKey j := rfl
@[simp] theorem State.setSt_memRead (s : State) (b : Byte) (n : Nat) : (s.setSt b).memRead n = s.memRead n := rfl
@[simp] theorem State.setSt_pixGet (s : State) (b : Byte) (p q : Nat) : (s.setSt b).pixGet p q = s.pixGet p q := rfl
@[simp] theorem State.setSt_effAddr (s : State) (b : Byte) (n : Nat) : (s.setSt b).effAddr n = s.effAddr n := rfl

/-! ### `setKey` -/

@[simp] theorem State.setKey_v (s : State) (k : Key) (b : Bool) : (s.setKey k b).v = s.v := rfl
@[simp] theorem State.setKey_i (s : State) (k : Key) (b : Bool) : (s.setKey k b).i = s.i := rfl
@[simp] theorem State.setKey_pc (s : State) (k : Key) (b : Bool) : (s.setKey k b).pc = s.pc := rfl
@[simp] theorem State.setKey_sp (s : State) (k : Key) (b : Bool) : (s.setKey k b).sp = s.sp := rfl
@[simp] theorem State.setKey_stack (s : State) (k : Key) (b : Bool) : (s.setKey k b).stack = s.stack := rfl
@[simp] theorem State.setKey_dt (s : State) (k : Key) (b : Bool) : (s.setKey k b).dt = s.dt := rfl
@[simp] theorem State.setKey_st (s : State) (k : Key) (b : Bool) : (s.setKey k b).st = s.st := rfl
@[simp] theorem State.setKey_mem (s : State) (k : Key) (b : Bool) : (s.setKey k b).mem = s.mem := rfl
@[simp] theorem State.setKey_fb (s : State) (k : Key) (b : Bool) : (s.setKey k b).fb = s.fb := rfl
@[simp] theorem State.setKey_halt (s : State) (k : Key) (b : Bool) : (s.setKey k b).halt = s.halt := rfl
@[simp] theorem State.setKey_cause (s : State) (k : Key) (b : Bool) : (s.setKey k b).cause = s.cause := rfl
@[simp] theorem State.setKey_wdLast (s : State) (k : Key) (b : Bool) : (s.setKey k b).wdLast = s.wdLast := rfl
@[simp] theorem State.setKey_wdCnt (s : State) (k : Key) (b : Bool) : (s.setKey k b).wdCnt = s.wdCnt := rfl
@[simp] theorem State.setKey_cfg (s : State) (k : Key) (b : Bool) : (s.setKey k b).cfg = s.cfg := rfl
@[simp] theorem State.setKey_inputs (s : State) (k : Key) (b : Bool) : (s.setKey k b).inputs = s.inputs := rfl
@[simp] theorem State.setKey_draws (s : State) (k : Key) (b : Bool) : (s.setKey k b).draws = s.draws := rfl
@[simp] theorem State.setKey_diag (s : State) (k : Key) (b : Bool) : (s.setKey k b).diag = s.diag := rfl
@[simp] theorem State.setKey_getV (s : State) (k : Key) (b : Bool) (r : Reg) : (s.setKey k b).getV r = s.getV r := rfl
@[simp] theorem State.setKey_memRead (s : State) (k : Key) (b : Bool) (n : Nat) : (s.setKey k b).memRead n = s.memRead n := rfl
@[simp] theorem State.setKey_pixGet (s : State) (k : Key) (b : Bool) (p q : Nat) : (s.setKey k b).pixGet p q = s.pixGet p q := rfl
@[simp] theorem State.setKey_effAddr (s : State) (k : Key) (b : Bool) (n : Nat) : (s.setKey k b).effAddr n = s.effAddr n := rfl

/-! ### `memWrite` -/

@[simp] theorem State.memWrite_v (s : State) (a : Nat) (b : Byte) : (s.memWrite a b).v = s.v := rfl
@[simp] theorem State.memWrite_i (s : State) (a : Nat) (b : Byte) : (s.memWrite a b).i = s.i := rfl
@[simp] theorem State.memWrite_pc (s : State) (a : Nat) (b : Byte) : (s.memWrite a b).pc = s.pc := rfl
@[simp] theorem State.memWrite_sp (s : State) (a : Nat) (b : Byte) : (s.memWrite a b).sp = s.sp := rfl
@[simp] theorem State.memWrite_stack (s : State) (a : Nat) (b : Byte) : (s.memWrite a b).stack = s.stack := rfl
@[simp] theorem State.memWrite_dt (s : State) (a : Nat) (b : Byte) : (s.memWrite a b).dt = s.dt := rfl
@[simp] theorem State.memWrite_st (s : State) (a : Nat) (b : Byte) : (s.memWrite a b).st = s.st := rfl
@[simp] theorem State.memWrite_key (s : State) (a : Nat) (b : Byte) : (s.memWrite a b).key = s.key := rfl
@[simp] theorem State.memWrite_fb (s : State) (a : Nat) (b : Byte) : (s.memWrite a b).fb = s.fb := rfl
@[simp] theorem State.memWrite_halt (s : State) (a : Nat) (b : Byte) : (s.memWrite a b).halt = s.halt := rfl
@[simp] theorem State.memWrite_cause (s : State) (a : Nat) (b : Byte) : (s.memWrite a b).cause = s.cause := rfl
@[simp] theorem State.memWrite_wdLast (s : State) (a : Nat) (b : Byte) : (s.memWrite a b).wdLast = s.wdLast := rfl
@[simp] theorem State.memWrite_wdCnt (s : State) (a : Nat) (b : Byte) : (s.memWrite a b).wdCnt = s.wdCnt := rfl
@[simp] theorem State.memWrite_cfg (s : State) (a : Nat) (b : Byte) : (s.memWrite a b).cfg = s.cfg := rfl
@[simp] theorem State.memWrite_inputs (s : State) (a : Nat) (b : Byte) : (s.memWrite a b).inputs = s.inputs := rfl
@[simp] theorem State.memWrite_draws (s : State) (a : Nat) (b : Byte) : (s.memWrite a b).draws = s.draws := rfl
@[simp] theorem State.memWrite_diag (s : State) (a : Nat) (b : Byte) : (s.memWrite a b).diag = s.diag := rfl
@[simp] theorem State.memWrite_getV (s : State) (a : Nat) (b : Byte) (r : Reg) : (s.memWrite a b).getV r = s.getV r := rfl
@[simp] theorem State.memWrite_getKey (s : State) (a : Nat) (b : Byte) (j : Key) : (s.memWrite a b).getKey j = s.getKey j := rfl
@[simp] theorem State.memWrite_pixGet (s : State) (a : Nat) (b : Byte) (p q : Nat) : (s.memWrite a b).pixGet p q = s.pixGet p q := rfl
@[simp] theorem State.memWrite_effAddr (s : State) (a : Nat) (b : Byte) (n : Nat) : (s.memWrite a b).effAddr n = s.effAddr n := rfl

/-! ### `pixClear` -/

@[simp] theorem State.pixClear_v (s : State) : (s.pixClear).v = s.v := rfl
@[simp] theorem State.pixClear_i (s : State) : (s.pixClear).i = s.i := rfl
@[simp] theorem State.pixClear_pc (s : State) : (s.pixClear).pc = s.pc := rfl
@[simp] theorem State.pixClear_sp (s : State) : (s.pixClear).sp = s.sp := rfl
@[simp] theorem State.pixClear_stack (s : State) : (s.pixClear).stack = s.stack := rfl
@[simp] theorem State.pixClear_dt (s : State) : (s.pixClear).dt = s.dt := rfl
@[simp] theorem State.pixClear_st (s : State) : (s.pixClear).st = s.st := rfl
@[simp] theorem State.pixClear_key (s : State) : (s.pixClear).key = s.key := rfl
@[simp] theorem State.pixClear_mem (s : State) : (s.pixClear).mem = s.mem := rfl
@[simp] theorem State.pixClear_fb (s : State) : (s.pixClear).fb = clearRaster := rfl
@[simp] theorem State.pixClear_halt (s : State) : (s.pixClear).halt = s.halt := rfl
@[simp] theorem State.pixClear_cause (s : State) : (s.pixClear).cause = s.cause := rfl
@[simp] theorem State.pixClear_wdLast (s : State) : (s.pixClear).wdLast = s.wdLast := rfl
@[simp] theorem State.pixClear_wdCnt (s : State) : (s.pixClear).wdCnt = s.wdCnt := rfl
@[simp] theorem State.pixClear_cfg (s : State) : (s.pixClear).cfg = s.cfg := rfl
@[simp] theorem State.pixClear_inputs (s : State) : (s.pixClear).inputs = s.inputs := rfl
@[simp] theorem State.pixClear_draws (s : State) : (s.pixClear).draws = s.draws := rfl
@[simp] theorem State.pixClear_diag (s : State) : (s.pixClear).diag = s.diag := rfl
@[simp] theorem State.pixClear_getV (s : State) (r : Reg) : (s.pixClear).getV r = s.getV r := rfl
@[simp] theorem State.pixClear_getKey (s : State) (j : Key) : (s.pixClear).getKey j = s.getKey j := rfl
@[simp] theorem State.pixClear_memRead (s : State) (n : Nat) : (s.pixClear).memRead n = s.memRead n := rfl
@[simp] theorem State.pixClear_effAddr (s : State) (n : Nat) : (s.pixClear).effAddr n = s.effAddr n := rfl

/-! ### `raiseFatal` -/

@[simp] theorem State.raiseFatal_v (s : State) (c : Cause) : (s.raiseFatal c).v = s.v := rfl
@[simp] theorem State.raiseFatal_i (s : State) (c : Cause) : (s.raiseFatal c).i = s.i := rfl
@[simp] theorem State.raiseFatal_pc (s : State) (c : Cause) : (s.raiseFatal c).pc = s.pc := rfl
@[simp] theorem State.raiseFatal_sp (s : State) (c : Cause) : (s.raiseFatal c).sp = s.sp := rfl
@[simp] theorem State.raiseFatal_stack (s : State) (c : Cause) : (s.raiseFatal c).stack = s.stack := rfl
@[simp] theorem State.raiseFatal_dt (s : State) (c : Cause) : (s.raiseFatal c).dt = s.dt := rfl
@[simp] theorem State.raiseFatal_st (s : State) (c : Cause) : (s.raiseFatal c).st = s.st := rfl
@[simp] theorem State.raiseFatal_key (s : State) (c : Cause) : (s.raiseFatal c).key = s.key := rfl
@[simp] theorem State.raiseFatal_mem (s : State) (c : Cause) : (s.raiseFatal c).mem = s.mem := rfl
@[simp] theorem State.raiseFatal_fb (s : State) (c : Cause) : (s.raiseFatal c).fb = s.fb := rfl
@[simp] theorem State.raiseFatal_halt (s : State) (c : Cause) : (s.raiseFatal c).halt = true := rfl
@[simp] theorem State.raiseFatal_cause (s : State) (c : Cause) : (s.raiseFatal c).cause = c := rfl
@[simp] theorem State.raiseFatal_wdLast (s : State) (c : Cause) : (s.raiseFatal c).wdLast = s.wdLast := rfl
@[simp] theorem State.raiseFatal_wdCnt (s : State) (c : Cause) : (s.raiseFatal c).wdCnt = s.wdCnt := rfl
@[simp] theorem State.raiseFatal_cfg (s : State) (c : Cause) : (s.raiseFatal c).cfg = s.cfg := rfl
@[simp] theorem State.raiseFatal_inputs (s : State) (c : Cause) : (s.raiseFatal c).inputs = s.inputs := rfl
@[simp] theorem State.raiseFatal_draws (s : State) (c : Cause) : (s.raiseFatal c).draws = s.draws := rfl
@[simp] theorem State.raiseFatal_diag (s : State) (c : Cause) : (s.raiseFatal c).diag = s.diag := rfl
@[simp] theorem State.raiseFatal_getV (s : State) (c : Cause) (r : Reg) : (s.raiseFatal c).getV r = s.getV r := rfl
@[simp] theorem State.raiseFatal_getKey (s : State) (c : Cause) (j : Key) : (s.raiseFatal c).getKey j = s.getKey j := rfl
@[simp] theorem State.raiseFatal_memRead (s : State) (c : Cause) (n : Nat) : (s.raiseFatal c).memRead n = s.memRead n := rfl
@[simp] theorem State.raiseFatal_pixGet (s : State) (c : Cause) (p q : Nat) : (s.raiseFatal c).pixGet p q = s.pixGet p q := rfl
@[simp] theorem State.raiseFatal_effAddr (s : State) (c : Cause) (n : Nat) : (s.raiseFatal c).effAddr n = s.effAddr n := rfl

/-! ### `emit` -/

@[simp] theorem State.emit_v (s : State) (d : Diag) : (s.emit d).v = s.v := rfl
@[simp] theorem State.emit_i (s : State) (d : Diag) : (s.emit d).i = s.i := rfl
@[simp] theorem State.emit_pc (s : State) (d : Diag) : (s.emit d).pc = s.pc := rfl
@[simp] theorem State.emit_sp (s : State) (d : Diag) : (s.emit d).sp = s.sp := rfl
@[simp] theorem State.emit_stack (s : State) (d : Diag) : (s.emit d).stack = s.stack := rfl
@[simp] theorem State.emit_dt (s : State) (d : Diag) : (s.emit d).dt = s.dt := rfl
@[simp] theorem State.emit_st (s : State) (d : Diag) : (s.emit d).st = s.st := rfl
@[simp] theorem State.emit_key (s : State) (d : Diag) : (s.emit d).key = s.key := rfl
@[simp] theorem State.emit_mem (s : State) (d : Diag) : (s.emit d).mem = s.mem := rfl
@[simp] theorem State.emit_fb (s : State) (d : Diag) : (s.emit d).fb = s.fb := rfl
@[simp] theorem State.emit_halt (s : State) (d : Diag) : (s.emit d).halt = s.halt := rfl
@[simp] theorem State.emit_cause (s : State) (d : Diag) : (s.emit d).cause = s.cause := rfl
@[simp] theorem State.emit_wdLast (s : State) (d : Diag) : (s.emit d).wdLast = s.wdLast := rfl
@[simp] theorem State.emit_wdCnt (s : State) (d : Diag) : (s.emit d).wdCnt = s.wdCnt := rfl
@[simp] theorem State.emit_cfg (s : State) (d : Diag) : (s.emit d).cfg = s.cfg := rfl
@[simp] theorem State.emit_inputs (s : State) (d : Diag) : (s.emit d).inputs = s.inputs := rfl
@[simp] theorem State.emit_draws (s : State) (d : Diag) : (s.emit d).draws = s.draws := rfl
@[simp] theorem State.emit_diag (s : State) (d : Diag) : (s.emit d).diag = d :: s.diag := rfl
@[simp] theorem State.emit_getV (s : State) (d : Diag) (r : Reg) : (s.emit d).getV r = s.getV r := rfl
@[simp] theorem State.emit_getKey (s : State) (d : Diag) (j : Key) : (s.emit d).getKey j = s.getKey j := rfl
@[simp] theorem State.emit_memRead (s : State) (d : Diag) (n : Nat) : (s.emit d).memRead n = s.memRead n := rfl
@[simp] theorem State.emit_pixGet (s : State) (d : Diag) (p q : Nat) : (s.emit d).pixGet p q = s.pixGet p q := rfl
@[simp] theorem State.emit_effAddr (s : State) (d : Diag) (n : Nat) : (s.emit d).effAddr n = s.effAddr n := rfl

/-! ### `withInputs` -/

@[simp] theorem State.withInputs_v (s : State) (es : List HostEvent) : (s.withInputs es).v = s.v := rfl
@[simp] theorem State.withInputs_i (s : State) (es : List HostEvent) : (s.withInputs es).i = s.i := rfl
@[simp] theorem State.withInputs_pc (s : State) (es : List HostEvent) : (s.withInputs es).pc = s.pc := rfl
@[simp] theorem State.withInputs_sp (s : State) (es : List HostEvent) : (s.withInputs es).sp = s.sp := rfl
@[simp] theorem State.withInputs_stack (s : State) (es : List HostEvent) : (s.withInputs es).stack = s.stack := rfl
@[simp] theorem State.withInputs_dt (s : State) (es : List HostEvent) : (s.withInputs es).dt = s.dt := rfl
@[simp] theorem State.withInputs_st (s : State) (es : List HostEvent) : (s.withInputs es).st = s.st := rfl
@[simp] theorem State.withInputs_key (s : State) (es : List HostEvent) : (s.withInputs es).key = s.key := rfl
@[simp] theorem State.withInputs_mem (s : State) (es : List HostEvent) : (s.withInputs es).mem = s.mem := rfl
@[simp] theorem State.withInputs_fb (s : State) (es : List HostEvent) : (s.withInputs es).fb = s.fb := rfl
@[simp] theorem State.withInputs_halt (s : State) (es : List HostEvent) : (s.withInputs es).halt = s.halt := rfl
@[simp] theorem State.withInputs_cause (s : State) (es : List HostEvent) : (s.withInputs es).cause = s.cause := rfl
@[simp] theorem State.withInputs_wdLast (s : State) (es : List HostEvent) : (s.withInputs es).wdLast = s.wdLast := rfl
@[simp] theorem State.withInputs_wdCnt (s : State) (es : List HostEvent) : (s.withInputs es).wdCnt = s.wdCnt := rfl
@[simp] theorem State.withInputs_cfg (s : State) (es : List HostEvent) : (s.withInputs es).cfg = s.cfg := rfl
@[simp] theorem State.withInputs_inputs (s : State) (es : List HostEvent) : (s.withInputs es).inputs = es := rfl
@[simp] theorem State.withInputs_draws (s : State) (es : List HostEvent) : (s.withInputs es).draws = s.draws := rfl
@[simp] theorem State.withInputs_diag (s : State) (es : List HostEvent) : (s.withInputs es).diag = s.diag := rfl
@[simp] theorem State.withInputs_getV (s : State) (es : List HostEvent) (r : Reg) : (s.withInputs es).getV r = s.getV r := rfl
@[simp] theorem State.withInputs_getKey (s : State) (es : List HostEvent) (j : Key) : (s.withInputs es).getKey j = s.getKey j := rfl
@[simp] theorem State.withInputs_memRead (s : State) (es : List HostEvent) (n : Nat) : (s.withInputs es).memRead n = s.memRead n := rfl
@[simp] theorem State.withInputs_pixGet (s : State) (es : List HostEvent) (p q : Nat) : (s.withInputs es).pixGet p q = s.pixGet p q := rfl
@[simp] theorem State.withInputs_effAddr (s : State) (es : List HostEvent) (n : Nat) : (s.withInputs es).effAddr n = s.effAddr n := rfl

/-! ### `frame` -/

@[simp] theorem State.frame_v (s : State) : (s.frame).v = s.v := rfl
@[simp] theorem State.frame_i (s : State) : (s.frame).i = s.i := rfl
@[simp] theorem State.frame_pc (s : State) : (s.frame).pc = s.pc := rfl
@[simp] theorem State.frame_sp (s : State) : (s.frame).sp = s.sp := rfl
@[simp] theorem State.frame_stack (s : State) : (s.frame).stack = s.stack := rfl
@[simp] theorem State.frame_dt (s : State) : (s.frame).dt = countDown s.dt := rfl
@[simp] theorem State.frame_st (s : State) : (s.frame).st = countDown s.st := rfl
@[simp] theorem State.frame_key (s : State) : (s.frame).key = s.key := rfl
@[simp] theorem State.frame_mem (s : State) : (s.frame).mem = s.mem := rfl
@[simp] theorem State.frame_fb (s : State) : (s.frame).fb = s.fb := rfl
@[simp] theorem State.frame_halt (s : State) : (s.frame).halt = s.halt := rfl
@[simp] theorem State.frame_cause (s : State) : (s.frame).cause = s.cause := rfl
@[simp] theorem State.frame_wdLast (s : State) : (s.frame).wdLast = s.wdLast := rfl
@[simp] theorem State.frame_wdCnt (s : State) : (s.frame).wdCnt = s.wdCnt := rfl
@[simp] theorem State.frame_cfg (s : State) : (s.frame).cfg = s.cfg := rfl
@[simp] theorem State.frame_inputs (s : State) : (s.frame).inputs = s.inputs := rfl
@[simp] theorem State.frame_draws (s : State) : (s.frame).draws = s.draws := rfl
@[simp] theorem State.frame_diag (s : State) : (s.frame).diag = s.diag := rfl
@[simp] theorem State.frame_getV (s : State) (r : Reg) : (s.frame).getV r = s.getV r := rfl
@[simp] theorem State.frame_getKey (s : State) (j : Key) : (s.frame).getKey j = s.getKey j := rfl
@[simp] theorem State.frame_memRead (s : State) (n : Nat) : (s.frame).memRead n = s.memRead n := rfl
@[simp] theorem State.frame_pixGet (s : State) (p q : Nat) : (s.frame).pixGet p q = s.pixGet p q := rfl
@[simp] theorem State.frame_effAddr (s : State) (n : Nat) : (s.frame).effAddr n = s.effAddr n := rfl

/-! ### `writeFlagged` -/

@[simp] theorem State.writeFlagged_i (s : State) (x : Reg) (f : Bool) (r : Byte) : (s.writeFlagged x f r).i = s.i := rfl
@[simp] theorem State.writeFlagged_pc (s : State) (x : Reg) (f : Bool) (r : Byte) : (s.writeFlagged x f r).pc = s.pc := rfl
@[simp] theorem State.writeFlagged_sp (s : State) (x : Reg) (f : Bool) (r : Byte) : (s.writeFlagged x f r).sp = s.sp := rfl
@[simp] theorem State.writeFlagged_stack (s : State) (x : Reg) (f : Bool) (r : Byte) : (s.writeFlagged x f r).stack = s.stack := rfl
@[simp] theorem State.writeFlagged_dt (s : State) (x : Reg) (f : Bool) (r : Byte) : (s.writeFlagged x f r).dt = s.dt := rfl
@[simp] theorem State.writeFlagged_st (s : State) (x : Reg) (f : Bool) (r : Byte) : (s.writeFlagged x f r).st = s.st := rfl
@[simp] theorem State.writeFlagged_key (s : State) (x : Reg) (f : Bool) (r : Byte) : (s.writeFlagged x f r).key = s.key := rfl
@[simp] theorem State.writeFlagged_mem (s : State) (x : Reg) (f : Bool) (r : Byte) : (s.writeFlagged x f r).mem = s.mem := rfl
@[simp] theorem State.writeFlagged_fb (s : State) (x : Reg) (f : Bool) (r : Byte) : (s.writeFlagged x f r).fb = s.fb := rfl
@[simp] theorem State.writeFlagged_halt (s : State) (x : Reg) (f : Bool) (r : Byte) : (s.writeFlagged x f r).halt = s.halt := rfl
@[simp] theorem State.writeFlagged_cause (s : State) (x : Reg) (f : Bool) (r : Byte) : (s.writeFlagged x f r).cause = s.cause := rfl
@[simp] theorem State.writeFlagged_wdLast (s : State) (x : Reg) (f : Bool) (r : Byte) : (s.writeFlagged x f r).wdLast = s.wdLast := rfl
@[simp] theorem State.writeFlagged_wdCnt (s : State) (x : Reg) (f : Bool) (r : Byte) : (s.writeFlagged x f r).wdCnt = s.wdCnt := rfl
@[simp] theorem State.writeFlagged_cfg (s : State) (x : Reg) (f : Bool) (r : Byte) : (s.writeFlagged x f r).cfg = s.cfg := rfl
@[simp] theorem State.writeFlagged_inputs (s : State) (x : Reg) (f : Bool) (r : Byte) : (s.writeFlagged x f r).inputs = s.inputs := rfl
@[simp] theorem State.writeFlagged_draws (s : State) (x : Reg) (f : Bool) (r : Byte) : (s.writeFlagged x f r).draws = s.draws := rfl
@[simp] theorem State.writeFlagged_diag (s : State) (x : Reg) (f : Bool) (r : Byte) : (s.writeFlagged x f r).diag = s.diag := rfl
@[simp] theorem State.writeFlagged_getKey (s : State) (x : Reg) (f : Bool) (r : Byte) (j : Key) : (s.writeFlagged x f r).getKey j = s.getKey j := rfl
@[simp] theorem State.writeFlagged_memRead (s : State) (x : Reg) (f : Bool) (r : Byte) (n : Nat) : (s.writeFlagged x f r).memRead n = s.memRead n := rfl
@[simp] theorem State.writeFlagged_pixGet (s : State) (x : Reg) (f : Bool) (r : Byte) (p q : Nat) : (s.writeFlagged x f r).pixGet p q = s.pixGet p q := rfl
@[simp] theorem State.writeFlagged_effAddr (s : State) (x : Reg) (f : Bool) (r : Byte) (n : Nat) : (s.writeFlagged x f r).effAddr n = s.effAddr n := rfl

/-! ### `reinit` -/

@[simp] theorem State.reinit_v (s : State) : s.reinit.v = Vector.replicate 16 0 := rfl
@[simp] theorem State.reinit_i (s : State) : s.reinit.i = 0x000 := rfl
@[simp] theorem State.reinit_pc (s : State) : s.reinit.pc = 0x200 := rfl
@[simp] theorem State.reinit_sp (s : State) : s.reinit.sp = 0 := rfl
@[simp] theorem State.reinit_stack (s : State) : s.reinit.stack = List.replicate s.cfg.stackDepth 0 := rfl
@[simp] theorem State.reinit_dt (s : State) : s.reinit.dt = 0 := rfl
@[simp] theorem State.reinit_st (s : State) : s.reinit.st = 0 := rfl
@[simp] theorem State.reinit_key (s : State) : s.reinit.key = s.key := rfl
@[simp] theorem State.reinit_mem (s : State) : s.reinit.mem = [] := rfl
@[simp] theorem State.reinit_fb (s : State) : s.reinit.fb = clearRaster := rfl
@[simp] theorem State.reinit_halt (s : State) : s.reinit.halt = false := rfl
@[simp] theorem State.reinit_cause (s : State) : s.reinit.cause = .none := rfl
@[simp] theorem State.reinit_wdLast (s : State) : s.reinit.wdLast = 0x000 := rfl
@[simp] theorem State.reinit_wdCnt (s : State) : s.reinit.wdCnt = 0 := rfl
@[simp] theorem State.reinit_cfg (s : State) : s.reinit.cfg = s.cfg := rfl
@[simp] theorem State.reinit_inputs (s : State) : s.reinit.inputs = s.inputs := rfl
@[simp] theorem State.reinit_draws (s : State) : s.reinit.draws = s.draws := rfl
@[simp] theorem State.reinit_diag (s : State) : s.reinit.diag = s.diag := rfl

/-! ### `pixSet` and `skipIf`, whose definitions branch -/

@[simp] theorem State.pixSet_v (s : State) (x y : Nat) (b : Bool) : (s.pixSet x y b).v = s.v := by
  unfold State.pixSet; split <;> rfl
@[simp] theorem State.pixSet_i (s : State) (x y : Nat) (b : Bool) : (s.pixSet x y b).i = s.i := by
  unfold State.pixSet; split <;> rfl
@[simp] theorem State.pixSet_pc (s : State) (x y : Nat) (b : Bool) : (s.pixSet x y b).pc = s.pc := by
  unfold State.pixSet; split <;> rfl
@[simp] theorem State.pixSet_sp (s : State) (x y : Nat) (b : Bool) : (s.pixSet x y b).sp = s.sp := by
  unfold State.pixSet; split <;> rfl
@[simp] theorem State.pixSet_stack (s : State) (x y : Nat) (b : Bool) : (s.pixSet x y b).stack = s.stack := by
  unfold State.pixSet; split <;> rfl
@[simp] theorem State.pixSet_dt (s : State) (x y : Nat) (b : Bool) : (s.pixSet x y b).dt = s.dt := by
  unfold State.pixSet; split <;> rfl
@[simp] theorem State.pixSet_st (s : State) (x y : Nat) (b : Bool) : (s.pixSet x y b).st = s.st := by
  unfold State.pixSet; split <;> rfl
@[simp] theorem State.pixSet_key (s : State) (x y : Nat) (b : Bool) : (s.pixSet x y b).key = s.key := by
  unfold State.pixSet; split <;> rfl
@[simp] theorem State.pixSet_mem (s : State) (x y : Nat) (b : Bool) : (s.pixSet x y b).mem = s.mem := by
  unfold State.pixSet; split <;> rfl
@[simp] theorem State.pixSet_halt (s : State) (x y : Nat) (b : Bool) : (s.pixSet x y b).halt = s.halt := by
  unfold State.pixSet; split <;> rfl
@[simp] theorem State.pixSet_cause (s : State) (x y : Nat) (b : Bool) : (s.pixSet x y b).cause = s.cause := by
  unfold State.pixSet; split <;> rfl
@[simp] theorem State.pixSet_wdLast (s : State) (x y : Nat) (b : Bool) : (s.pixSet x y b).wdLast = s.wdLast := by
  unfold State.pixSet; split <;> rfl
@[simp] theorem State.pixSet_wdCnt (s : State) (x y : Nat) (b : Bool) : (s.pixSet x y b).wdCnt = s.wdCnt := by
  unfold State.pixSet; split <;> rfl
@[simp] theorem State.pixSet_cfg (s : State) (x y : Nat) (b : Bool) : (s.pixSet x y b).cfg = s.cfg := by
  unfold State.pixSet; split <;> rfl
@[simp] theorem State.pixSet_inputs (s : State) (x y : Nat) (b : Bool) : (s.pixSet x y b).inputs = s.inputs := by
  unfold State.pixSet; split <;> rfl
@[simp] theorem State.pixSet_draws (s : State) (x y : Nat) (b : Bool) : (s.pixSet x y b).draws = s.draws := by
  unfold State.pixSet; split <;> rfl
@[simp] theorem State.pixSet_diag (s : State) (x y : Nat) (b : Bool) : (s.pixSet x y b).diag = s.diag := by
  unfold State.pixSet; split <;> rfl
@[simp] theorem State.pixSet_getV (s : State) (x y : Nat) (b : Bool) (r : Reg) :
    (s.pixSet x y b).getV r = s.getV r := by
  unfold State.pixSet; split <;> rfl
@[simp] theorem State.pixSet_getKey (s : State) (x y : Nat) (b : Bool) (j : Key) :
    (s.pixSet x y b).getKey j = s.getKey j := by
  unfold State.pixSet; split <;> rfl
@[simp] theorem State.pixSet_memRead (s : State) (x y : Nat) (b : Bool) (n : Nat) :
    (s.pixSet x y b).memRead n = s.memRead n := by
  unfold State.pixSet; split <;> rfl
@[simp] theorem State.pixSet_effAddr (s : State) (x y : Nat) (b : Bool) (n : Nat) :
    (s.pixSet x y b).effAddr n = s.effAddr n := by
  unfold State.pixSet; split <;> rfl
@[simp] theorem State.skipIf_v (s : State) (b : Bool) : (s.skipIf b).v = s.v := by
  cases b <;> rfl
@[simp] theorem State.skipIf_i (s : State) (b : Bool) : (s.skipIf b).i = s.i := by
  cases b <;> rfl
@[simp] theorem State.skipIf_sp (s : State) (b : Bool) : (s.skipIf b).sp = s.sp := by
  cases b <;> rfl
@[simp] theorem State.skipIf_stack (s : State) (b : Bool) : (s.skipIf b).stack = s.stack := by
  cases b <;> rfl
@[simp] theorem State.skipIf_dt (s : State) (b : Bool) : (s.skipIf b).dt = s.dt := by
  cases b <;> rfl
@[simp] theorem State.skipIf_st (s : State) (b : Bool) : (s.skipIf b).st = s.st := by
  cases b <;> rfl
@[simp] theorem State.skipIf_key (s : State) (b : Bool) : (s.skipIf b).key = s.key := by
  cases b <;> rfl
@[simp] theorem State.skipIf_mem (s : State) (b : Bool) : (s.skipIf b).mem = s.mem := by
  cases b <;> rfl
@[simp] theorem State.skipIf_fb (s : State) (b : Bool) : (s.skipIf b).fb = s.fb := by
  cases b <;> rfl
@[simp] theorem State.skipIf_halt (s : State) (b : Bool) : (s.skipIf b).halt = s.halt := by
  cases b <;> rfl
@[simp] theorem State.skipIf_cause (s : State) (b : Bool) : (s.skipIf b).cause = s.cause := by
  cases b <;> rfl
@[simp] theorem State.skipIf_wdLast (s : State) (b : Bool) : (s.skipIf b).wdLast = s.wdLast := by
  cases b <;> rfl
@[simp] theorem State.skipIf_wdCnt (s : State) (b : Bool) : (s.skipIf b).wdCnt = s.wdCnt := by
  cases b <;> rfl
@[simp] theorem State.skipIf_cfg (s : State) (b : Bool) : (s.skipIf b).cfg = s.cfg := by
  cases b <;> rfl
@[simp] theorem State.skipIf_inputs (s : State) (b : Bool) : (s.skipIf b).inputs = s.inputs := by
  cases b <;> rfl
@[simp] theorem State.skipIf_draws (s : State) (b : Bool) : (s.skipIf b).draws = s.draws := by
  cases b <;> rfl
@[simp] theorem State.skipIf_diag (s : State) (b : Bool) : (s.skipIf b).diag = s.diag := by
  cases b <;> rfl
@[simp] theorem State.skipIf_pc (s : State) (b : Bool) :
    (s.skipIf b).pc = if b then s.pc + 2 else s.pc := by
  cases b <;> rfl
@[simp] theorem State.skipIf_getV (s : State) (b : Bool) (r : Reg) : (s.skipIf b).getV r = s.getV r := by
  cases b <;> rfl
@[simp] theorem State.skipIf_getKey (s : State) (b : Bool) (j : Key) : (s.skipIf b).getKey j = s.getKey j := by
  cases b <;> rfl
@[simp] theorem State.skipIf_memRead (s : State) (b : Bool) (n : Nat) : (s.skipIf b).memRead n = s.memRead n := by
  cases b <;> rfl
@[simp] theorem State.skipIf_effAddr (s : State) (b : Bool) (n : Nat) : (s.skipIf b).effAddr n = s.effAddr n := by
  cases b <;> rfl
@[simp] theorem State.skipIf_pixGet (s : State) (b : Bool) (p q : Nat) : (s.skipIf b).pixGet p q = s.pixGet p q := by
  cases b <;> rfl

end Sys2Proof.Machine
end

