-- ==== Sys2Proof/Laws/Memory.lean ====
section
/-! SUPPORT. The laws of memory: read after write, and every operation keeps the canonical form. -/

namespace Sys2Proof.Machine

variable {reset : Nat → Byte}

theorem Memory.read_erase_self (m : Memory) (a : Nat) : (m.erase a).read reset a = reset a := by
  induction m with
  | nil => rfl
  | cons d m ih =>
    by_cases h : d.1 = a
    · simpa [Memory.erase, h] using ih
    · simpa [Memory.erase, h, Memory.read] using ih

theorem Memory.read_erase_ne (m : Memory) {a a' : Nat} (h : a' ≠ a) :
    (m.erase a).read reset a' = m.read reset a' := by
  induction m with
  | nil => rfl
  | cons d m ih =>
    by_cases hd : d.1 = a
    · have : d.1 ≠ a' := fun e => h (e ▸ hd)
      simpa [Memory.erase, hd, Memory.read, Ne.symm h] using ih
    · by_cases ha : d.1 = a'
      · simp [Memory.erase, Memory.read, ha, h]
      · simpa [Memory.erase, hd, Memory.read, ha] using ih

theorem Memory.read_insert (m : Memory) (c : Host.Cell) (a : Nat) (h : ∀ d ∈ m, d.1 ≠ c.1) :
    (Memory.insert c m).read reset a = if a = c.1 then c.2 else m.read reset a := by
  induction m with
  | nil => by_cases ha : a = c.1 <;> simp [Memory.insert, Memory.read, ha, Ne.symm]
  | cons d m ih =>
    have hd : d.1 ≠ c.1 := h d (by simp)
    have ih := ih fun e he => h e (by simp [he])
    by_cases hlt : c.1 < d.1
    · by_cases ha : a = c.1
      · simp [Memory.insert, hlt, Memory.read, ha]
      · simp [Memory.insert, hlt, Memory.read, ha, Ne.symm ha]
    · by_cases hda : d.1 = a
      · simp [Memory.insert, hlt, Memory.read, ← hda, hd]
      · simp [Memory.insert, hlt, Memory.read, hda, ih]

theorem Memory.mem_erase {m : Memory} {a : Nat} {d : Host.Cell} : d ∈ m.erase a ↔ d ∈ m ∧ d.1 ≠ a := by
  simp [Memory.erase]

/-- Reading after a write: the byte written at that address, the old byte at every other. -/
theorem Memory.read_write (m : Memory) (a a' : Nat) (b : Byte) :
    (m.write reset a b).read reset a' = if a' = a then b else m.read reset a' := by
  unfold Memory.write
  split
  next hb =>
    by_cases h : a' = a
    · subst h; simp [Memory.read_erase_self, hb]
    · simp [h, Memory.read_erase_ne m h]
  next hb =>
    rw [Memory.read_insert _ _ _ fun d hd => (Memory.mem_erase.1 hd).2]
    by_cases h : a' = a
    · simp [h]
    · simp [h, Memory.read_erase_ne m h]

theorem Memory.mem_insert {m : Memory} {c d : Host.Cell} : d ∈ Memory.insert c m ↔ d = c ∨ d ∈ m := by
  induction m with
  | nil => simp [Memory.insert]
  | cons e m ih =>
    unfold Memory.insert
    split
    · simp
    · simp only [List.mem_cons, ih]; tauto

theorem Memory.wf_erase {m : Memory} (h : m.wf reset) (a : Nat) : (m.erase a).wf reset :=
  ⟨h.1.filter _, fun c hc => h.2 c (Memory.mem_erase.1 hc).1⟩

theorem Memory.wf_insert {m : Memory} (h : m.wf reset) {c : Host.Cell} (hm : ∀ d ∈ m, d.1 ≠ c.1)
    (hc : c.1 < 4096 ∧ c.2 ≠ reset c.1) : (Memory.insert c m).wf reset := by
  refine ⟨?_, fun d hd => (Memory.mem_insert.1 hd).elim (fun e => e ▸ hc) (h.2 d)⟩
  obtain ⟨hp, -⟩ := h
  induction m with
  | nil => simp [Memory.insert]
  | cons e m ih =>
    rw [List.pairwise_cons] at hp
    have hne : e.1 ≠ c.1 := hm e (by simp)
    unfold Memory.insert
    split
    next hlt =>
      refine List.pairwise_cons.2 ⟨?_, List.pairwise_cons.2 hp⟩
      intro d hd
      rcases List.mem_cons.1 hd with rfl | hd
      · exact hlt
      · exact hlt.trans (hp.1 d hd)
    next hlt =>
      refine List.pairwise_cons.2 ⟨?_, ih (fun d hd => hm d (by simp [hd])) hp.2⟩
      intro d hd
      rcases Memory.mem_insert.1 hd with rfl | hd
      · omega
      · exact hp.1 d hd

/-- A write keeps the canonical form. -/
theorem Memory.wf_write {m : Memory} (h : m.wf reset) {a : Nat} (ha : a < 4096) (b : Byte) :
    (m.write reset a b).wf reset := by
  unfold Memory.write
  split
  next => exact Memory.wf_erase h a
  next hb => exact Memory.wf_insert (Memory.wf_erase h a) (fun d hd => (Memory.mem_erase.1 hd).2) ⟨ha, hb⟩

theorem Memory.wf_nil : Memory.wf reset [] := ⟨List.Pairwise.nil, by simp⟩

/-- `MemRead` after `MemWrite` (R52, R53, R55). -/
theorem State.memRead_memWrite (s : State) (a a' : Nat) (b : Byte) :
    (s.memWrite a b).memRead a' = if a' % 4096 = a % 4096 then b else s.memRead a' :=
  Memory.read_write ..

theorem State.memWrite_wf {s : State} (h : s.mem.wf (resetByte s.cfg)) (a : Nat) (b : Byte) :
    (s.memWrite a b).mem.wf (resetByte s.cfg) :=
  Memory.wf_write h (Nat.mod_lt _ (by decide)) b

/-- Only the address mod 4096 counts (R55). -/
@[simp] theorem State.memRead_mod (s : State) (a : Nat) : s.memRead (a % 4096) = s.memRead a := by
  simp [State.memRead]

@[simp] theorem State.effAddr_mod (s : State) (k : Nat) : s.effAddr k % 4096 = s.effAddr k := by
  simp [State.effAddr]

theorem State.effAddr_lt (s : State) (k : Nat) : s.effAddr k < 4096 := Nat.mod_lt _ (by decide)

/-- The elements of one access lie at distinct addresses. -/
theorem State.effAddr_inj (s : State) {j k : Nat} (hj : j < 4096) (hk : k < 4096)
    (h : s.effAddr j = s.effAddr k) : j = k := by
  simp only [State.effAddr] at h
  omega

/-- Placing bytes changes only memory. -/
theorem State.placeBytes_frame (bs : List Byte) (s : State) (a : Nat) :
    s.placeBytes a bs = { s with mem := (s.placeBytes a bs).mem } := by
  induction bs generalizing s a with
  | nil => rfl
  | cons b bs ih => exact (ih (s.memWrite a b) (a + 1)).trans rfl

/-- After a reset memory holds its reset bytes (R58, R191). -/
@[simp] theorem State.reinit_memRead (s : State) (a : Nat) :
    s.reinit.memRead a = resetByte s.cfg (a % 4096) := rfl

end Sys2Proof.Machine
end

