-- ==== Sys2Proof/Laws/Registers.lean ====
section
/-! SUPPORT. The laws of the registers, the key latch, the flags and the register block V0..VX. -/

namespace Sys2Proof.Machine

/-- A register read after a register write. -/
theorem State.getV_setV (s : State) (x r : Reg) (b : Byte) :
    (s.setV x b).getV r = if r = x then b else s.getV r := by
  simp only [State.getV, State.setV, Vector.getElem_set, Fin.val_inj, eq_comm]

@[simp] theorem State.getV_setV_self (s : State) (x : Reg) (b : Byte) : (s.setV x b).getV x = b := by
  simp [State.getV_setV]

@[simp] theorem State.getV_setV_ne (s : State) {x r : Reg} (b : Byte) (h : r ≠ x) :
    (s.setV x b).getV r = s.getV r := by
  simp [State.getV_setV, h]

/-- A flag-setting instruction's registers: the result in the destination, even when that is VF, and
else the flag in VF (R110). -/
theorem State.getV_writeFlagged (s : State) (x r : Reg) (f : Bool) (b : Byte) :
    (s.writeFlagged x f b).getV r = if r = x then b else if r = VF then flagByte f else s.getV r := by
  simp only [State.writeFlagged, State.getV_setV]

/-- A key read after a key edge. -/
theorem State.getKey_setKey (s : State) (k j : Key) (b : Bool) :
    (s.setKey k b).getKey j = if j = k then b else s.getKey j := by
  simp only [State.getKey, State.setKey, Vector.getElem_set, Fin.val_inj, eq_comm]

@[simp] theorem State.reinit_getV (s : State) (r : Reg) : s.reinit.getV r = 0 := by
  simp [State.getV]

@[simp] theorem State.reinit_getKey (s : State) (k : Key) : s.reinit.getKey k = s.getKey k := rfl

@[simp] theorem mem_regsUpTo {x k : Reg} : k ∈ regsUpTo x ↔ k ≤ x := by
  simp [regsUpTo]

theorem regsUpTo_nodup (x : Reg) : (regsUpTo x).Nodup := (List.nodup_finRange 16).filter _

/-- No key is found exactly when none is pressed (R152). -/
theorem State.firstKey_none {s : State} : s.firstKey = none ↔ ∀ k, s.getKey k = false := by
  simp [State.firstKey, List.find?_eq_none]

/-- A key found is pressed. -/
theorem State.firstKey_pressed {s : State} {k : Key} (h : s.firstKey = some k) : s.getKey k = true := by
  simpa using List.find?_some h

theorem flagByte_true : flagByte true = 1 := rfl

theorem flagByte_false : flagByte false = 0 := rfl

end Sys2Proof.Machine
end

