-- ==== Sys2Proof/Laws/Raster.lean ====
section
/-! SUPPORT. The laws of the raster primitives (R140) and of the steps a DRW is made of (R143). -/

namespace Sys2Proof.Machine

/-- A cell read after a cell write; off the grid nothing is written and OFF is read (R140). -/
theorem State.pixGet_pixSet (s : State) (x y p q : Nat) (b : Bool) :
    (s.pixSet x y b).pixGet p q = if p = x ∧ q = y ∧ x < 64 ∧ y < 32 then b else s.pixGet p q := by
  unfold State.pixSet
  split
  next h =>
    by_cases hpq : p < 64 ∧ q < 32
    · by_cases hq : q = y
      · subst hq
        by_cases hp : p = x
        · subst hp; simp [State.pixGet, h]
        · simp [State.pixGet, hpq, hp, Ne.symm hp]
      · simp [State.pixGet, hpq, hq, Ne.symm hq]
    · have : ¬(p = x ∧ q = y ∧ x < 64 ∧ y < 32) := by rintro ⟨rfl, rfl, h'⟩; exact hpq h'
      simp only [State.pixGet, hpq, this, dite_false, if_false]
  next h =>
    have : ¬(p = x ∧ q = y ∧ x < 64 ∧ y < 32) := fun h' => h h'.2.2
    simp only [this, if_false]

/-- Off the grid a cell reads OFF (R140). -/
theorem State.pixGet_off (s : State) {x y : Nat} (h : ¬(x < 64 ∧ y < 32)) : s.pixGet x y = false := by
  simp only [State.pixGet, h, dite_false]

@[simp] theorem State.pixGet_pixClear (s : State) (x y : Nat) : s.pixClear.pixGet x y = false := by
  simp [State.pixGet, State.pixClear, clearRaster]

@[simp] theorem State.pixGet_reinit (s : State) (x y : Nat) : s.reinit.pixGet x y = false := by
  simp [State.pixGet, clearRaster]

/-- A set sprite bit changes only VF and the raster. -/
theorem State.drawBit_frame (s : State) (x y : Nat) :
    s.drawBit x y = { s with v := (s.drawBit x y).v, fb := (s.drawBit x y).fb } := by
  unfold State.drawBit State.pixSet
  split <;> split <;> rfl

/-- A set sprite bit inverts its cell. -/
theorem State.drawBit_pixGet (s : State) (x y p q : Nat) :
    (s.drawBit x y).pixGet p q =
      if p = x ∧ q = y ∧ x < 64 ∧ y < 32 then !s.pixGet p q else s.pixGet p q := by
  unfold State.drawBit
  by_cases h : p = x ∧ q = y ∧ x < 64 ∧ y < 32
  · obtain ⟨rfl, rfl, -⟩ := h
    split <;> simp_all [State.pixGet_pixSet]
  · split <;> simp only [State.pixGet_pixSet, h, if_false, State.setV_pixGet]

/-- A set sprite bit sets VF when its cell was ON, and leaves the registers alone otherwise. -/
theorem State.drawBit_getV (s : State) (x y : Nat) (r : Reg) :
    (s.drawBit x y).getV r = if r = VF ∧ s.pixGet x y = true then 1 else s.getV r := by
  unfold State.drawBit
  split
  next h => simp [State.getV_setV, h, flagByte_true]
  next h => simp [h]

end Sys2Proof.Machine
end

