-- ==== Sys2Proof/Laws/Loops.lean ====
section
/-! SUPPORT. What the loops of a register dump, a register load and a DRW change, and what one turn
does; induction over the turns is packaged here. -/

namespace Sys2Proof.Machine

/-- A register dump changes only memory (R135). -/
theorem State.foldl_dumpReg_frame (ks : List Reg) (s : State) :
    ks.foldl State.dumpReg s = { s with mem := (ks.foldl State.dumpReg s).mem } := by
  induction ks generalizing s with
  | nil => rfl
  | cons k ks ih => exact (ih (s.dumpReg k)).trans rfl

/-- A register load changes only the registers (R136). -/
theorem State.foldl_loadReg_frame (ks : List Reg) (s : State) :
    ks.foldl State.loadReg s = { s with v := (ks.foldl State.loadReg s).v } := by
  induction ks generalizing s with
  | nil => rfl
  | cons k ks ih => exact (ih (s.loadReg k)).trans rfl

/-- A loop whose body changes only VF and the raster changes only VF and the raster. -/
theorem State.foldl_raster_frame {α : Type} (f : State → α → State)
    (hf : ∀ s a, f s a = { s with v := (f s a).v, fb := (f s a).fb }) (l : List α) (s : State) :
    l.foldl f s = { s with v := (l.foldl f s).v, fb := (l.foldl f s).fb } := by
  induction l generalizing s with
  | nil => rfl
  | cons a l ih =>
    rw [List.foldl_cons, ih (f s a), hf s a]

/-- A sprite row changes only VF and the raster. -/
theorem State.drawRow_frame (s : State) (x y : Nat) (b : Byte) :
    s.drawRow x y b = { s with v := (s.drawRow x y b).v, fb := (s.drawRow x y b).fb } := by
  refine State.foldl_raster_frame _ (fun t col => ?_) _ s
  split
  · exact State.drawBit_frame ..
  · rfl

/-- A sprite changes only VF and the raster. -/
theorem State.drawSprite_frame (s : State) (x y n : Nat) :
    s.drawSprite x y n = { s with v := (s.drawSprite x y n).v, fb := (s.drawSprite x y n).fb } :=
  State.foldl_raster_frame _ (fun _ _ => State.drawRow_frame ..) _ s

/-- One turn of a register dump, read back (R135). -/
theorem State.dumpReg_memRead (s : State) (k : Reg) (a : Nat) :
    (s.dumpReg k).memRead a = if a % 4096 = s.effAddr k.val then s.getV k else s.memRead a := by
  simp only [State.dumpReg, State.memRead_memWrite, State.effAddr_mod]

/-- One turn of a register load, read back (R136). -/
theorem State.loadReg_getV (s : State) (k r : Reg) :
    (s.loadReg k).getV r = if r = k then s.memRead (s.effAddr k.val) else s.getV r := by
  simp only [State.loadReg, State.getV_setV]

/-- A dump leaves every byte outside its addresses alone (R135). -/
theorem State.foldl_dumpReg_memRead_ne (ks : List Reg) (s : State) (a : Nat)
    (h : ∀ k ∈ ks, a % 4096 ≠ s.effAddr k.val) : (ks.foldl State.dumpReg s).memRead a = s.memRead a := by
  induction ks generalizing s with
  | nil => rfl
  | cons k ks ih =>
    rw [List.foldl_cons, ih (s.dumpReg k) fun j hj => h j (by simp [hj]), State.dumpReg_memRead,
      if_neg (h k (by simp))]

/-- A dump of distinct registers stores each at its address (R135). -/
theorem State.foldl_dumpReg_memRead {ks : List Reg} (hn : ks.Nodup) (s : State) {k : Reg} (hk : k ∈ ks) :
    (ks.foldl State.dumpReg s).memRead (s.effAddr k.val) = s.getV k := by
  induction ks generalizing s with
  | nil => cases hk
  | cons j ks ih =>
    rw [List.nodup_cons] at hn
    rw [List.foldl_cons]
    rcases List.mem_cons.1 hk with rfl | hk
    · rw [State.foldl_dumpReg_memRead_ne, State.dumpReg_memRead, State.effAddr_mod, if_pos rfl]
      intro i hi he
      rw [State.effAddr_mod] at he
      exact hn.1 (Fin.ext (s.effAddr_inj (by omega) (by omega) he) ▸ hi)
    · exact ih hn.2 (s.dumpReg j) hk

/-- A dump keeps the canonical form of memory. -/
theorem State.foldl_dumpReg_wf (ks : List Reg) {s : State} (h : s.mem.wf (resetByte s.cfg)) :
    (ks.foldl State.dumpReg s).mem.wf (resetByte s.cfg) := by
  induction ks generalizing s with
  | nil => exact h
  | cons k ks ih => exact ih (s := s.dumpReg k) (State.memWrite_wf h ..)

/-- A load fills the registers it names from their addresses and leaves the others alone (R136). -/
theorem State.foldl_loadReg_getV (ks : List Reg) (s : State) (r : Reg) :
    (ks.foldl State.loadReg s).getV r = if r ∈ ks then s.memRead (s.effAddr r.val) else s.getV r := by
  induction ks generalizing s with
  | nil => rfl
  | cons k ks ih =>
    rw [List.foldl_cons, ih]
    have hm : (s.loadReg k).memRead ((s.loadReg k).effAddr r.val) = s.memRead (s.effAddr r.val) := rfl
    rw [hm, State.loadReg_getV]
    by_cases hr : r ∈ ks
    · simp [hr]
    · by_cases hk : r = k
      · subst hk; simp
      · simp [hr, hk]

end Sys2Proof.Machine
end

