-- ==== Sys2Proof/Laws/PerInstr.lean ====
section
/-! SUPPORT. The family `RowOf`, one lemma per constructor of `Instr`: an instruction's word selects the
instruction's own row of R75. -/

namespace Sys2Proof.Laws

/-- The word of an instruction selects the instruction's row (R75, R86). -/
def RowOf.Statement (i : Instr) : Prop := (opcodeRow i).selects (encode i)

theorem RowOf.cls : RowOf.Statement .cls :=
  (by decide : (opcodeRow .cls).selects (encode .cls))
theorem RowOf.ret : RowOf.Statement .ret :=
  (by decide : (opcodeRow .ret).selects (encode .ret))
theorem RowOf.jp (nnn : Addr) : RowOf.Statement (.jp nnn) := encodeNNN_row _ nnn
theorem RowOf.call (nnn : Addr) : RowOf.Statement (.call nnn) := encodeNNN_row _ nnn
theorem RowOf.seImm (x : Reg) (nn : Byte) : RowOf.Statement (.seImm x nn) := encodeXNN_row _ x nn
theorem RowOf.sneImm (x : Reg) (nn : Byte) : RowOf.Statement (.sneImm x nn) := encodeXNN_row _ x nn
theorem RowOf.seReg (x : Reg) (y : Reg) : RowOf.Statement (.seReg x y) := encodeXY_row_low _ x y _
theorem RowOf.ldImm (x : Reg) (nn : Byte) : RowOf.Statement (.ldImm x nn) := encodeXNN_row _ x nn
theorem RowOf.addImm (x : Reg) (nn : Byte) : RowOf.Statement (.addImm x nn) := encodeXNN_row _ x nn
theorem RowOf.ldReg (x : Reg) (y : Reg) : RowOf.Statement (.ldReg x y) := encodeXY_row_low _ x y _
theorem RowOf.or (x : Reg) (y : Reg) : RowOf.Statement (.or x y) := encodeXY_row_low _ x y _
theorem RowOf.and (x : Reg) (y : Reg) : RowOf.Statement (.and x y) := encodeXY_row_low _ x y _
theorem RowOf.xor (x : Reg) (y : Reg) : RowOf.Statement (.xor x y) := encodeXY_row_low _ x y _
theorem RowOf.addReg (x : Reg) (y : Reg) : RowOf.Statement (.addReg x y) := encodeXY_row_low _ x y _
theorem RowOf.sub (x : Reg) (y : Reg) : RowOf.Statement (.sub x y) := encodeXY_row_low _ x y _
theorem RowOf.shr (x : Reg) (y : Reg) : RowOf.Statement (.shr x y) := encodeXY_row_low _ x y _
theorem RowOf.subn (x : Reg) (y : Reg) : RowOf.Statement (.subn x y) := encodeXY_row_low _ x y _
theorem RowOf.shl (x : Reg) (y : Reg) : RowOf.Statement (.shl x y) := encodeXY_row_low _ x y _
theorem RowOf.sneReg (x : Reg) (y : Reg) : RowOf.Statement (.sneReg x y) := encodeXY_row_low _ x y _
theorem RowOf.ldI (nnn : Addr) : RowOf.Statement (.ldI nnn) := encodeNNN_row _ nnn
theorem RowOf.jpV0 (nnn : Addr) : RowOf.Statement (.jpV0 nnn) := encodeNNN_row _ nnn
theorem RowOf.rnd (x : Reg) (nn : Byte) : RowOf.Statement (.rnd x nn) := encodeXNN_row _ x nn
theorem RowOf.drw (x : Reg) (y : Reg) (n : BitVec 4) : RowOf.Statement (.drw x y n) := encodeXY_row _ x y n
theorem RowOf.skp (x : Reg) : RowOf.Statement (.skp x) := encodeXNN_row_low _ x _
theorem RowOf.sknp (x : Reg) : RowOf.Statement (.sknp x) := encodeXNN_row_low _ x _
theorem RowOf.ldVxDt (x : Reg) : RowOf.Statement (.ldVxDt x) := encodeXNN_row_low _ x _
theorem RowOf.ldVxK (x : Reg) : RowOf.Statement (.ldVxK x) := encodeXNN_row_low _ x _
theorem RowOf.ldDtVx (x : Reg) : RowOf.Statement (.ldDtVx x) := encodeXNN_row_low _ x _
theorem RowOf.ldStVx (x : Reg) : RowOf.Statement (.ldStVx x) := encodeXNN_row_low _ x _
theorem RowOf.addI (x : Reg) : RowOf.Statement (.addI x) := encodeXNN_row_low _ x _
theorem RowOf.ldF (x : Reg) : RowOf.Statement (.ldF x) := encodeXNN_row_low _ x _
theorem RowOf.ldB (x : Reg) : RowOf.Statement (.ldB x) := encodeXNN_row_low _ x _
theorem RowOf.dump (x : Reg) : RowOf.Statement (.dump x) := encodeXNN_row_low _ x _
theorem RowOf.load (x : Reg) : RowOf.Statement (.load x) := encodeXNN_row_low _ x _

end Sys2Proof.Laws
end

