-- ==== Sys2Proof/Laws/Step.lean ====
section
/-! SUPPORT. Everything one step can do, said once: the cases of `step`, of a tick and of its end. -/

namespace Sys2Proof.Machine

/-- A configuration that is not well-formed has no run (R8). -/
theorem step_badConfig {s : State} (h : s.cfg.wf = false) : step s = .refused .configuration := by
  simp [step, stepEvent, h]

/-- With nothing pending a step is a tick. -/
theorem step_tick {s : State} (hc : s.cfg.wf = true) (h : s.inputs = []) : step s = tick s := by
  simp [step, stepEvent, hc, h]

/-- A pending event is delivered in the state in which it is no longer pending. -/
theorem step_deliver {s : State} {e : HostEvent} {es : List HostEvent} (hc : s.cfg.wf = true)
    (h : s.inputs = e :: es) : step s = deliver e (s.withInputs es) := by
  simp [step, stepEvent, hc, h]

/-- A step whose event is a tick runs it in the state `atTick` names. -/
theorem step_atTick {s u : State} (hc : s.cfg.wf = true) (h : s.atTick = some u) : step s = tick u := by
  unfold State.atTick at h
  split at h
  next hi => cases h; exact step_tick hc hi
  next hi => cases h; exact step_deliver hc hi
  next => cases h

/-- A halted core does nothing at a tick (R171). -/
theorem tick_halted {s : State} (h : s.halt = true) : tick s = .next s := by
  simp [tick, h]

/-- A running core's tick executes the decoded instruction (R170). -/
theorem tick_instr {s : State} {i : Instr} (h : s.halt = false) (hd : decode s.fetch = .instr i) :
    tick s = endExec (exec i s.advancePc) := by
  simp [tick, h, hd]

/-- A running core's tick on a decode miss advances `PC` and puts out a diagnostic (R81). -/
theorem tick_miss {s : State} (h : s.halt = false) (hd : decode s.fetch = .miss) :
    tick s = .next (s.advancePc.emit (.decodeMiss s.fetch s.pc)).endTick := by
  simp [tick, h, hd]

/-- A tick ends without the watchdog step exactly when it halted the core (R164, R170). -/
theorem State.endTick_halted {s : State} (h : s.halt = true) : s.endTick = s := by
  simp [State.endTick, h]

theorem State.endTick_running {s : State} (h : s.halt = false) : s.endTick = s.watchdogStep := by
  simp [State.endTick, h]

/-- The watchdog step either counts or resets (R179). -/
theorem State.watchdogStep_cases (s : State) :
    (s.nextWdCnt ≤ 100 ∧ s.watchdogStep = { s with wdCnt := s.nextWdCnt, wdLast := s.pc }) ∨
      (100 < s.nextWdCnt ∧ s.watchdogStep = (s.emit .watchdogReset).reinit) := by
  unfold State.watchdogStep
  split
  next h => exact .inr ⟨h, rfl⟩
  next h => exact .inl ⟨Nat.le_of_not_lt h, rfl⟩

/-- `Frame` on one timer (R177). -/
theorem countDown_toNat (b : Byte) : (countDown b).toNat = b.toNat - 1 := by
  have := b.isLt
  unfold countDown
  split
  · rw [BitVec.toNat_sub]; simp; omega
  · omega

/-- Every host event answers a next state when every tick does. -/
theorem deliver_next {s : State} (h : ∃ t, tick s = .next t) (e : HostEvent) :
    ∃ t, deliver e s = .next t := by
  cases e with
  | reset => exact ⟨_, rfl⟩
  | tick => exact h
  | frame => exact ⟨_, rfl⟩
  | keyDown k => exact ⟨_, rfl⟩
  | keyUp k => exact ⟨_, rfl⟩

end Sys2Proof.Machine
end

