-- ==== Sys2Proof/Laws/Stack.lean ====
section
/-! SUPPORT. Everything the stack primitives (R29) can do. -/

namespace Sys2Proof.Machine

/-- A push of a full stack raises StackOverflow. -/
theorem State.push_full {s : State} (a : Addr) (h : s.sp = s.cfg.stackDepth) :
    s.push a = .error .stackOverflow := if_pos h

/-- Another push writes the entry at `SP` and counts it. -/
theorem State.push_ok {s : State} (a : Addr) (h : s.sp ≠ s.cfg.stackDepth) :
    s.push a = .ok { s with stack := s.stack.set s.sp a, sp := s.sp + 1 } := if_neg h

/-- A pop of an empty stack raises StackUnderflow. -/
theorem State.pop_empty {s : State} (h : s.sp = 0) : s.pop = .error .stackUnderflow := if_pos h

/-- Another pop gives the last entry and uncounts it. -/
theorem State.pop_ok {s : State} (h : s.sp ≠ 0) :
    s.pop = .ok (s.stack.getD (s.sp - 1) 0, { s with sp := s.sp - 1 }) := if_neg h

end Sys2Proof.Machine
end

