-- ==== Sys2Proof/Machine/Assembly.lean ====
section
/-! DEFINITION. The assembler syntax of the spec (R85, R86): the text of an instruction, and the bytes of
a program as they lie in a ROM image. The machine reads neither. -/

namespace Sys2Proof.Machine

/-- A hexadecimal digit. -/
def hexDigit (n : Nat) : String := String.singleton (if n < 10 then Char.ofNat (48 + n) else Char.ofNat (55 + n))

/-- The lowest `k` hexadecimal digits of a number. -/
def hexDigits : Nat → Nat → String
  | 0, _ => ""
  | k + 1, n => hexDigits k (n / 16) ++ hexDigit (n % 16)

/-- A number of `k` hexadecimal digits, as R85 writes it. -/
def hexNumber (k n : Nat) : String := "0x" ++ hexDigits k n

/-- `V0` to `VF` (R85). -/
def regText (x : Reg) : String := "V" ++ hexDigit x.val

/-- The text of an instruction (R75, R85). -/
def asmText : Instr → String
  | .cls => "CLS"
  | .ret => "RET"
  | .jp nnn => "JP " ++ hexNumber 3 nnn.toNat
  | .call nnn => "CALL " ++ hexNumber 3 nnn.toNat
  | .seImm x nn => "SE " ++ regText x ++ ", " ++ hexNumber 2 nn.toNat
  | .sneImm x nn => "SNE " ++ regText x ++ ", " ++ hexNumber 2 nn.toNat
  | .seReg x y => "SE " ++ regText x ++ ", " ++ regText y
  | .ldImm x nn => "LD " ++ regText x ++ ", " ++ hexNumber 2 nn.toNat
  | .addImm x nn => "ADD " ++ regText x ++ ", " ++ hexNumber 2 nn.toNat
  | .ldReg x y => "LD " ++ regText x ++ ", " ++ regText y
  | .or x y => "OR " ++ regText x ++ ", " ++ regText y
  | .and x y => "AND " ++ regText x ++ ", " ++ regText y
  | .xor x y => "XOR " ++ regText x ++ ", " ++ regText y
  | .addReg x y => "ADD " ++ regText x ++ ", " ++ regText y
  | .sub x y => "SUB " ++ regText x ++ ", " ++ regText y
  | .shr x y => "SHR " ++ regText x ++ ", " ++ regText y
  | .subn x y => "SUBN " ++ regText x ++ ", " ++ regText y
  | .shl x y => "SHL " ++ regText x ++ ", " ++ regText y
  | .sneReg x y => "SNE " ++ regText x ++ ", " ++ regText y
  | .ldI nnn => "LD I, " ++ hexNumber 3 nnn.toNat
  | .jpV0 nnn => "JP V0, " ++ hexNumber 3 nnn.toNat
  | .rnd x nn => "RND " ++ regText x ++ ", " ++ hexNumber 2 nn.toNat
  | .drw x y n => "DRW " ++ regText x ++ ", " ++ regText y ++ ", " ++ hexNumber 1 n.toNat
  | .skp x => "SKP " ++ regText x
  | .sknp x => "SKNP " ++ regText x
  | .ldVxDt x => "LD " ++ regText x ++ ", DT"
  | .ldVxK x => "LD " ++ regText x ++ ", K"
  | .ldDtVx x => "LD DT, " ++ regText x
  | .ldStVx x => "LD ST, " ++ regText x
  | .addI x => "ADD I, " ++ regText x
  | .ldF x => "LD F, " ++ regText x
  | .ldB x => "LD B, " ++ regText x
  | .dump x => "LD [I], " ++ regText x
  | .load x => "LD " ++ regText x ++ ", [I]"

/-- A line of a program: an instruction, or the bytes of a `DB` directive (R86). -/
inductive AsmLine where
  | instr (i : Instr)
  | db (bytes : List Byte)
  deriving DecidableEq, Repr

/-- The bytes of a line (R86). -/
def lineBytes : AsmLine → List Byte
  | .instr i => encodeBytes i
  | .db bytes => bytes

/-- The ROM image of a program: raw bytes, no header, no length prefix (R65). -/
def assemble (p : List AsmLine) : List Byte := p.flatMap lineBytes

end Sys2Proof.Machine
end

