-- ==== Sys2Proof/Tests/Slice0.lean ====
section
/-! SUPPORT. Tests and witnesses. The expected results are the vectors of 95_test_vectors.md, named
beside each test by their ids, and the examples of the instruction rules; none is taken from the model. -/

namespace Sys2Proof.Tests

open Sys2Proof.Machine

/-- The state a vector starts from: the reset state with some registers set. -/
def withRegs (rs : List (Reg × Byte)) : State := rs.foldl (fun s r => s.setV r.1 r.2) State.reset

/-- Whether one tick on the word at `PC` ends in a state with the property. -/
def ends (w : Word) (s : State) (p : State → Bool) : Bool :=
  match step (s.placeFetch w) with
  | .next t => p t
  | _ => false

/-- Whether one step ends in a state with the property. -/
def steps (s : State) (p : State → Bool) : Bool :=
  match step s with
  | .next t => p t
  | _ => false

/-- Whether a tick on the word at `PC` leaves every register as listed and `PC` at 0x202. -/
def endsRegs (w : Word) (s : State) (rs : List (Reg × Byte)) : Bool :=
  ends w s fun t => rs.all (fun r => t.getV r.1 == r.2) && t.pc == 0x202

/-! ### Ill-formed configurations (R8) -/

theorem test_wf_default : State.reset.cfg.wf = true := by decide

theorem test_wf_rom_too_long :
    ({ State.reset.cfg with rom := List.replicate 3585 0 } : Config).romFits = false :=
  decide_eq_false (by rw [List.length_replicate]; decide)

theorem test_wf_font_short : ({ State.reset.cfg with font := [0xF0] } : Config).wf = false := by decide

theorem test_wf_no_stack : ({ State.reset.cfg with stackDepth := 0 } : Config).wf = false := by decide

/-! ### Decoding (R75, R77), one word of every row -/

theorem test_decode_family_0_to_7 :
    [0x00E0, 0x00EE, 0x1ABC, 0x2300, 0x332A, 0x432B, 0x5120, 0x6A07, 0x7A05].map (decodeTableWord 16) =
      [some .cls, some .ret, some (.jp 0xABC), some (.call 0x300), some (.seImm 3 0x2A), some (.sneImm 3 0x2B),
        some (.seReg 1 2), some (.ldImm 0xA 7), some (.addImm 0xA 5)] := by decide

theorem test_decode_family_8 :
    [0x8120, 0x8121, 0x8122, 0x8123, 0x8AB4, 0x8125, 0x8126, 0x8127, 0x812E].map (decodeTableWord 16) =
      [some (.ldReg 1 2), some (.or 1 2), some (.and 1 2), some (.xor 1 2), some (.addReg 0xA 0xB),
        some (.sub 1 2), some (.shr 1 2), some (.subn 1 2), some (.shl 1 2)] := by decide

theorem test_decode_family_9_to_E :
    [0x9120, 0xA2F0, 0xB300, 0xC30F, 0xD12F, 0xE59E, 0xE5A1].map (decodeTableWord 16) =
      [some (.sneReg 1 2), some (.ldI 0x2F0), some (.jpV0 0x300), some (.rnd 3 0x0F), some (.drw 1 2 15),
        some (.skp 5), some (.sknp 5)] := by decide

theorem test_decode_family_F :
    [0xF207, 0xF60A, 0xF215, 0xF218, 0xF21E, 0xF429, 0xF533, 0xF255, 0xF165].map (decodeTableWord 16) =
      [some (.ldVxDt 2), some (.ldVxK 6), some (.ldDtVx 2), some (.ldStVx 2), some (.addI 2), some (.ldF 4),
        some (.ldB 5), some (.dump 2), some (.load 1)] := by decide

/-- V30-1 to V30-13. -/
theorem test_decode_misses :
    [0x0000, 0x0123, 0x00E1, 0x00FD, 0xE000, 0xF000, 0xF075, 0x8009, 0x5121, 0x9121, 0x8128, 0x812F, 0xE59F].all
      (fun w => decodeTableWord 16 w == none) = true := by decide

/-- R78: of the sixteen low nibbles family 8 decodes nine, of the 256 low bytes E decodes two and F
nine. -/
theorem test_decode_counts :
    ((List.range 16).filter fun n => decodeFamily8 (fieldsOf (BitVec.ofNat 16 n)) != .miss).length = 9 ∧
    ((List.range 256).filter fun n => decodeFamilyE (fieldsOf (BitVec.ofNat 16 n)) != .miss).length = 2 ∧
    ((List.range 256).filter fun n => decodeFamilyF (fieldsOf (BitVec.ofNat 16 n)) != .miss).length = 9 := by
  decide

theorem test_decode_rejects_by_name :
    decodeBytes [0x51] = .error .truncated ∧ decodeBytes [0x51, 0x21] = .error (.decodeMiss 0x5121) := by
  decide

/-- R86, R85: the word, the bytes and the text of the document's example. -/
theorem test_assembly :
    encodeBytes (.ldImm 0xA 7) = [0x6A, 0x07] ∧ asmText (.ldImm 0xA 7) = "LD VA, 0x07" ∧
      asmText (.load 1) = "LD V1, [I]" := by decide

/-! ### Control flow -/

/-- V40-2. -/
theorem test_ret : ends 0x00EE { State.reset.setPc 0x300 with sp := 2, stack := [0x202, 0xABC] ++ List.replicate 14 0 }
    (fun t => t.pc == 0xABC && t.sp == 1 && !t.halt) = true := by decide

/-- V40-3. -/
theorem test_ret_underflow : ends 0x00EE (State.reset.setPc 0x300)
    (fun t => t.pc == 0x302 && t.fatal && t.fatalCause == 2 && t.wdLast == 0) = true := by decide

/-- V40-4. -/
theorem test_jp : ends 0x1ABC State.reset (fun t => t.pc == 0xABC) = true := by decide

/-- V40-7. -/
theorem test_call_last_entry : ends 0x2300 { State.reset with sp := 15 }
    (fun t => t.pc == 0x300 && t.sp == 16 && t.stack[15]? == some 0x202) = true := by decide

/-- V40-9. -/
theorem test_call_overflow :
    ends 0x2300 { State.reset with sp := 2, stack := [1, 2], cfg := { State.reset.cfg with stackDepth := 2 } }
      (fun t => t.pc == 0x202 && t.fatalCause == 3 && t.sp == 2 && t.stack == [1, 2]) = true := by decide

/-- V40-10, V40-12. -/
theorem test_se_imm : ends 0x332A (withRegs [(3, 0x2A)]) (fun t => t.pc == 0x204) = true ∧
    ends 0x3F00 (State.reset.setPc 0xFFC) (fun t => t.pc == 0x000) = true := by decide

/-- V40-13, V40-14. -/
theorem test_sne_imm : ends 0x432A (withRegs [(3, 0x2A)]) (fun t => t.pc == 0x202) = true ∧
    ends 0x432B (withRegs [(3, 0x2A)]) (fun t => t.pc == 0x204) = true := by decide

/-- V40-15, V40-16. -/
theorem test_se_reg : ends 0x5120 (withRegs [(1, 5), (2, 5)]) (fun t => t.pc == 0x204) = true ∧
    ends 0x5120 (withRegs [(1, 5), (2, 6)]) (fun t => t.pc == 0x202) = true := by decide

/-- V40-19, V40-20. -/
theorem test_sne_reg : ends 0x9120 (withRegs [(1, 5), (2, 6)]) (fun t => t.pc == 0x204) = true ∧
    ends 0x9120 (withRegs [(1, 5), (2, 5)]) (fun t => t.pc == 0x202) = true := by decide

/-- V40-24, V40-25. -/
theorem test_jp_v0 : ends 0xBFFF (withRegs [(0, 0xFF)]) (fun t => t.pc == 0x0FE && t.getV VF == 0) = true ∧
    ends 0xB300 (withRegs [(0, 4), (3, 0x80)]) (fun t => t.pc == 0x304) = true := by decide

/-- V40-27: the fetch at 0xFFF takes its second byte from 0x000. -/
theorem test_fetch_wraps : steps (((State.reset.setPc 0xFFF).memWrite 0xFFF 0x60).memWrite 0x000 0x2A)
    (fun t => t.getV 0 == 0x2A && t.pc == 0x001) = true := by decide

/-! ### Load, arithmetic, logic, shift, random -/

/-- V41-1, V41-2. -/
theorem test_ld_imm : endsRegs 0x6A07 State.reset [(0xA, 7)] = true ∧ endsRegs 0x6FFF State.reset [(VF, 0xFF)] = true := by
  decide

/-- V41-4, V41-5. -/
theorem test_add_imm : endsRegs 0x7A01 (withRegs [(0xA, 0xFF), (VF, 0x55)]) [(0xA, 0), (VF, 0x55)] = true ∧
    endsRegs 0x7FFF (withRegs [(VF, 2)]) [(VF, 1)] = true := by decide

/-- V41-6. -/
theorem test_ld_reg : endsRegs 0x8120 (withRegs [(2, 0x5A)]) [(1, 0x5A), (2, 0x5A)] = true := by decide

/-- V41-7. -/
theorem test_or : endsRegs 0x8121 (withRegs [(1, 0xF0), (2, 0x0F), (VF, 0x77)]) [(1, 0xFF), (VF, 0x77)] = true := by
  decide

/-- V41-8. -/
theorem test_and : endsRegs 0x8122 (withRegs [(1, 0xF0), (2, 0x3C), (VF, 0x77)]) [(1, 0x30), (VF, 0x77)] = true := by
  decide

/-- V41-9, V41-10. -/
theorem test_xor : endsRegs 0x8123 (withRegs [(1, 0xF0), (2, 0x3C), (VF, 0x77)]) [(1, 0xCC), (VF, 0x77)] = true ∧
    endsRegs 0x8113 (withRegs [(1, 0xF0)]) [(1, 0)] = true := by decide

/-- V41-11, V41-14. -/
theorem test_add_reg : endsRegs 0x8124 (withRegs [(1, 0xC8), (2, 0x64)]) [(1, 0x2C), (VF, 1)] = true ∧
    endsRegs 0x8124 (withRegs [(1, 0x80), (2, 0x7F), (VF, 1)]) [(1, 0xFF), (VF, 0)] = true := by decide

/-- V41-16, V41-18. -/
theorem test_add_reg_vf : endsRegs 0x8F14 (withRegs [(VF, 0x10), (1, 0x20)]) [(VF, 0x30)] = true ∧
    endsRegs 0x81F4 (withRegs [(1, 0xFF), (VF, 1)]) [(1, 0), (VF, 1)] = true := by decide

/-- V41-20, V41-23. -/
theorem test_sub : endsRegs 0x8125 (withRegs [(1, 5), (2, 0xA), (VF, 1)]) [(1, 0xFB), (VF, 0)] = true ∧
    endsRegs 0x81F5 (withRegs [(1, 9), (VF, 4)]) [(1, 5), (VF, 1)] = true := by decide

/-- V41-21, V41-22. -/
theorem test_sub_equal_and_vf : endsRegs 0x8125 (withRegs [(1, 7), (2, 7), (VF, 1)]) [(1, 0), (VF, 0)] = true ∧
    endsRegs 0x8F15 (withRegs [(VF, 9), (1, 4)]) [(VF, 5)] = true := by decide

/-- V41-25, V41-27. -/
theorem test_shr : endsRegs 0x8126 (withRegs [(1, 4), (2, 0xFF), (VF, 1)]) [(1, 2), (VF, 0)] = true ∧
    endsRegs 0x8F06 (withRegs [(VF, 3)]) [(VF, 1)] = true := by decide

/-- V41-28, V41-30. -/
theorem test_subn : endsRegs 0x8127 (withRegs [(1, 5), (2, 0xA)]) [(1, 5), (VF, 1)] = true ∧
    endsRegs 0x8127 (withRegs [(1, 7), (2, 7), (VF, 1)]) [(1, 0), (VF, 0)] = true := by decide

/-- V41-33, V41-34. -/
theorem test_shl : endsRegs 0x812E (withRegs [(1, 0xFF)]) [(1, 0xFE), (VF, 1)] = true ∧
    endsRegs 0x8FFE (withRegs [(VF, 0xC0)]) [(VF, 0x80)] = true := by decide

/-- V41-36: with the mask 0x00 the result is 0 for every draw. -/
theorem test_rnd_masked : ∃ t, exec (.rnd 3 0) (withRegs [(3, 0x55)]) = .next t ∧ t.getV 3 = 0 ∧ t.draws = 1 :=
  ⟨_, rfl, by simp [State.getV, State.setV, State.draw], rfl⟩

/-! ### Index register and memory -/

/-- V42-1, V42-3. -/
theorem test_index : ends 0xA2F0 State.reset (fun t => t.i == 0x2F0) = true ∧
    ends 0xF21E ((withRegs [(2, 1)]).setI 0xFFF) (fun t => t.i == 0 && t.getV VF == 0) = true := by decide

/-- V42-5, V42-9. -/
theorem test_glyph : ends 0xF429 (withRegs [(4, 0xA)]) (fun t => t.i == 0x082) = true ∧
    ends 0xF429 (withRegs [(4, 0xFF)]) (fun t => t.i == 0x54B) = true := by decide

/-- V42-10, V42-14. -/
theorem test_digits :
    ends 0xF533 ((withRegs [(5, 157)]).setI 0x300)
      (fun t => t.memRead 0x300 == 1 && t.memRead 0x301 == 5 && t.memRead 0x302 == 7 && t.i == 0x300) = true ∧
    ends 0xF533 ((((withRegs [(5, 100)]).setI 0xFFE).memWrite 0xFFF 7).memWrite 0x000 7)
      (fun t => t.memRead 0xFFE == 1 && t.memRead 0xFFF == 0 && t.memRead 0x000 == 0) = true := by decide

/-- V42-15, V42-17. -/
theorem test_dump :
    ends 0xF255 ((withRegs [(0, 0x11), (1, 0x22), (2, 0x33), (3, 0x44)]).setI 0x400)
      (fun t => t.memRead 0x400 == 0x11 && t.memRead 0x402 == 0x33 && t.memRead 0x403 == 0 && t.i == 0x400) = true ∧
    ends 0xF155 ((withRegs [(0, 0xAA), (1, 0xBB)]).setI 0xFFF)
      (fun t => t.memRead 0xFFF == 0xAA && t.memRead 0x000 == 0xBB) = true := by decide

/-- V42-18, V42-19. -/
theorem test_load :
    endsRegs 0xF165 (((((withRegs [(2, 0x99)]).setI 0x400).memWrite 0x400 0xAB).memWrite 0x401 0xCD).memWrite 0x402 0xEF)
      [(0, 0xAB), (1, 0xCD), (2, 0x99)] = true ∧
    endsRegs 0xF065 (State.reset.setI 0x050) [(0, 0xF0)] = true := by decide

/-- A write of the reset byte takes the cell off the list: equal memories are equal data. -/
theorem test_memory_is_canonical :
    ((State.reset.memWrite 0x300 7).memWrite 0x050 1).mem = [(0x050, 1), (0x300, 7)] ∧
      (((State.reset.memWrite 0x300 7).memWrite 0x050 1).memWrite 0x050 0xF0).mem = [(0x300, 7)] := by decide

/-! ### Display -/

/-- V43-1. -/
theorem test_cls : ends 0x00E0 (((withRegs [(VF, 1)]).pixSet 5 7 true).pixSet 63 31 true)
    (fun t => !t.pixGet 5 7 && !t.pixGet 63 31 && t.getV VF == 1) = true := by decide

/-- V43-3: two collisions, and the flag is 1. -/
theorem test_drw_collides :
    ends 0xD011 ((((State.reset.setI 0x300).memWrite 0x300 0xFF).pixSet 0 0 true).pixSet 7 0 true)
      (fun t => !t.pixGet 0 0 && t.pixGet 1 0 && t.pixGet 6 0 && !t.pixGet 7 0 && t.getV VF == 1) = true := by decide

/-- V43-5: the origin wraps to (6, 31) and the second row is dropped. -/
theorem test_drw_edge :
    ends 0xD012 ((((withRegs [(0, 70), (1, 63)]).setI 0x300).memWrite 0x300 0x80).memWrite 0x301 0x80)
      (fun t => t.pixGet 6 31 && !t.pixGet 7 31 && !t.pixGet 6 0 && !t.pixGet 6 30 && t.getV VF == 0) = true := by decide

/-! ### Keypad and timers -/

/-- V44-3, V44-2. -/
theorem test_skp : ends 0xE59E ((withRegs [(5, 0x13)]).setKey 3 true) (fun t => t.pc == 0x204) = true ∧
    ends 0xE59E (withRegs [(5, 3)]) (fun t => t.pc == 0x202) = true := by decide

/-- V44-4, V44-5. -/
theorem test_sknp : ends 0xE5A1 (withRegs [(5, 3)]) (fun t => t.pc == 0x204) = true ∧
    ends 0xE5A1 ((withRegs [(5, 3)]).setKey 3 true) (fun t => t.pc == 0x202) = true := by decide

/-- V44-9, V44-12. -/
theorem test_key_wait :
    endsRegs 0xF60A (((withRegs [(6, 0x77)]).setKey 3 true).setKey 9 true) [(6, 3)] = true ∧
    ends 0xF60A ((withRegs [(6, 0x77)]).setPc 0xFFE) (fun t => t.pc == 0xFFE && t.getV 6 == 0x77) = true := by decide

/-- V44-13, V44-14, V44-15. -/
theorem test_timer_moves : endsRegs 0xF207 (State.reset.setDt 0x3C) [(2, 0x3C)] = true ∧
    ends 0xF215 (withRegs [(2, 0x3C)]) (fun t => t.dt == 0x3C) = true ∧
    ends 0xF218 (withRegs [(2, 5)]) (fun t => t.st == 5 && t.tone) = true := by decide

/-! ### Host events and the watchdog -/

/-- V60-1, V60-8: the timers run while the core is halted. -/
theorem test_frame : steps { State.reset with dt := 2, st := 1, inputs := [.frame] }
      (fun t => t.dt == 1 && t.st == 0 && !t.tone && t.inputs == []) = true ∧
    steps { State.reset.raiseFatal .stackUnderflow with dt := 5, inputs := [.frame] } (fun t => t.dt == 4 && t.halt) =
      true := by decide

/-- V60-4, V60-6. -/
theorem test_keys : steps { State.reset with inputs := [.keyDown 0xA] } (fun t => t.getKey 0xA && !t.getKey 0xB) = true ∧
    steps { State.reset.setKey 0xA true with inputs := [.keyUp 0xA] } (fun t => !t.getKey 0xA) = true := by decide

/-- V60-7, V60-9. -/
theorem test_halted : step ({ State.reset with sp := 3 }.raiseFatal .stackOverflow) =
      .next ({ State.reset with sp := 3 }.raiseFatal .stackOverflow) ∧
    steps { ((withRegs [(3, 9)]).setKey 1 true).raiseFatal .stackUnderflow with inputs := [.reset] }
      (fun t => decide (t = State.reset.setKey 1 true)) = true := by
  exact ⟨rfl, by decide⟩

/-- V60-10, V60-11. -/
theorem test_watchdog :
    ends 0x1200 { withRegs [(3, 9)] with wdLast := 0x200, wdCnt := 100 }
      (fun t => t.getV 3 == 0 && t.pc == 0x200 && t.wdCnt == 0 && t.wdLast == 0 && t.diag == [.watchdogReset]) = true ∧
    ends 0x1200 { State.reset with wdLast := 0x200, wdCnt := 99 } (fun t => t.wdCnt == 100 && t.diag == []) = true := by
  decide

/-- V60-12, V30-1. -/
theorem test_watchdog_and_miss :
    ends 0x6000 { State.reset with wdLast := 0x200, wdCnt := 57 } (fun t => t.wdCnt == 0 && t.wdLast == 0x202) = true ∧
    ends 0x0000 State.reset (fun t => t.pc == 0x202 && t.diag == [.decodeMiss 0x0000 0x200] && !t.halt) = true := by
  decide

/-- R191, R65: a reset installs the ROM of the configuration. -/
theorem test_rom_is_installed :
    steps { State.reset with cfg := { State.reset.cfg with rom := [0x12, 0x34] }, inputs := [.reset] }
      (fun t => t.fetch == 0x1234 && t.memRead 0x202 == 0 && t.memRead 0x09F == 0x80) = true := by decide

/-! ### Witnesses: a state and operands that meet the hypotheses of a statement -/

/-- A core about to execute `w` from the reset state. -/
def about (w : Word) : State := State.reset.placeFetch w

theorem witness_EncodeOfDecodeIsTheWord : decode 0xDFFF = .instr (.drw 15 15 15) := by decide

theorem witness_DecodeFollowsTheOpcodeMap :
    decode 0xF065 = .instr (.load 0) ∧ decode 0xF066 = .miss ∧ (opcodeRow (.load 0)).selects 0xF065 := by decide

theorem witness_NoWordSelectsTwoRows :
    opcodeRow .cls ∈ opcodeTable ∧ (opcodeRow .cls).selects 0x00E0 := by decide

theorem witness_StepRunsTheDecodedInstruction : (about 0x6A07).cfg.wf = true ∧
    (about 0x6A07).atTick = some (about 0x6A07) ∧ (about 0x6A07).halt = false ∧
    decode (about 0x6A07).fetch = .instr (.ldImm 0xA 7) := ⟨by decide, rfl, rfl, by decide⟩

/-- The same with a `Tick` pending. -/
theorem witness_StepRunsAPendingTick :
    ((about 0x6A07).withInputs [.tick, .frame]).atTick = some ((about 0x6A07).withInputs [.frame]) := rfl

theorem witness_DecodeMissOnlyAdvancesPc : State.reset.cfg.wf = true ∧ State.reset.atTick = some State.reset ∧
    State.reset.halt = false ∧ ∀ r ∈ opcodeTable, ¬r.selects State.reset.fetch := ⟨by decide, rfl, rfl, by decide⟩

/-- A core halted by a RET with an empty stack. -/
def stopped : State := State.reset.raiseFatal .stackUnderflow

theorem witness_HaltedCoreWaitsForReset :
    (stopped.cfg.wf = true ∧ stopped.atTick = some stopped ∧ stopped.halt = true) ∧
    ((stopped.withInputs [.keyDown 3]).halt = true ∧
      (∀ es, (stopped.withInputs [.keyDown 3]).inputs ≠ .reset :: es) ∧
      ∃ t, step (stopped.withInputs [.keyDown 3]) = .next t) ∧
    ((stopped.withInputs [.reset]).inputs = .reset :: [] ∧ ∃ t, step (stopped.withInputs [.reset]) = .next t) :=
  ⟨⟨by decide, rfl, rfl⟩, ⟨rfl, fun _ h => (by cases h), _, rfl⟩, rfl, _, rfl⟩

theorem witness_StepAlwaysCompletes : State.reset.cfg.wf = true ∧
    { State.reset with cfg := { State.reset.cfg with stackDepth := 0 } }.cfg.wf = false := by decide

theorem witness_StepKeepsInvariant : (about 0x2300).Inv ∧ ∃ t, step (about 0x2300) = .next t :=
  ⟨⟨by decide, by decide, by decide, by decide, by decide, by decide⟩, _, rfl⟩

theorem witness_StepKeepsConfiguration : ∃ t, step State.reset = .next t := ⟨_, rfl⟩

theorem witness_ResetEventReinitialises :
    (stopped.withInputs [.reset, .tick]).cfg.wf = true ∧ (stopped.withInputs [.reset, .tick]).inputs = [.reset, .tick] :=
  ⟨by decide, rfl⟩

theorem witness_FrameCountsTheTimersDown :
    (stopped.withInputs [.frame]).cfg.wf = true ∧ (stopped.withInputs [.frame]).inputs = .frame :: [] ∧
    (∃ t, exec (.ldDtVx 2) State.reset = .next t) ∧ ∀ x, Instr.ldDtVx 2 ≠ .ldStVx x :=
  ⟨by decide, rfl, ⟨_, rfl⟩, fun _ h => (by cases h)⟩

theorem witness_KeyEdgesSetTheLatch : (State.reset.withInputs [.keyDown 15]).cfg.wf = true ∧
    (State.reset.withInputs [.keyDown 15]).inputs = .keyDown 15 :: [] ∧
    (State.reset.withInputs [.keyUp 0]).inputs = .keyUp 0 :: [] := ⟨by decide, rfl, rfl⟩

/-- A core at a jump to itself whose repeat counter stands at `n`. -/
def stalled (n : Nat) : State := { about 0x1200 with wdLast := 0x200, wdCnt := n }

/-- A tick that misses; and, below, both sides of the threshold for one that executes an instruction: with
`n = 99` the counter comes to 100, with `n = 100` to 101. -/
theorem witness_WatchdogRunsAfterAMiss : State.reset.halt = false ∧ decode State.reset.fetch = .miss := by decide

theorem witness_WatchdogCountsRepeatsAndResets (n : Nat) : (stalled n).cfg.wf = true ∧
    (stalled n).atTick = some (stalled n) ∧ (stalled n).halt = false ∧
    decode (stalled n).fetch = .instr (.jp 0x200) ∧
    ∃ t, exec (.jp 0x200) ((stalled n).setPc ((stalled n).pc + 2)) = .next t ∧ t.halt = false ∧
      (if t.pc = (stalled n).wdLast then (stalled n).wdCnt + 1 else 0) = n + 1 :=
  ⟨show State.reset.cfg.wf = true by decide, rfl, rfl, show decode (about 0x1200).fetch = _ by decide, _, rfl, rfl,
    if_pos rfl⟩

theorem witness_StalledCoreIsReset : (stalled 100).cfg.wf = true ∧ (stalled 100).inputs = [] ∧
    (stalled 100).halt = false ∧ (stalled 100).wdLast = (stalled 100).pc ∧ (stalled 100).wdCnt ≤ 100 ∧
    decode (stalled 100).fetch = .instr (.jp (stalled 100).pc) := by
  refine ⟨by decide, rfl, rfl, rfl, by decide, by decide⟩

/-- A core at a key wait with no key down whose repeat counter stands at `n`. -/
def waiting (n : Nat) : State := { about 0xF60A with wdLast := 0x200, wdCnt := n }

theorem witness_StalledKeyWait : (waiting 0).cfg.wf = true ∧ (waiting 0).inputs = [] ∧ (waiting 0).halt = false ∧
    (waiting 0).wdLast = (waiting 0).pc ∧ (waiting 0).wdCnt ≤ 100 ∧
    decode (waiting 0).fetch = .instr (.ldVxK 6) ∧ ∀ k, (waiting 0).getKey k = false := by
  refine ⟨by decide, rfl, rfl, rfl, by decide, by decide, by decide⟩

/-- A core about to execute a CALL with a full stack. -/
def fullStack : State := { about 0x2300 with sp := 16 }

theorem witness_FatalTickIsPrecise :
    (decode (about 0x00EE).fetch = .instr .ret ∧ (about 0x00EE).sp = 0 ∧ (about 0x00EE).atTick = some (about 0x00EE)) ∧
    (decode fullStack.fetch = .instr (.call 0x300) ∧ fullStack.sp = fullStack.cfg.stackDepth ∧
      fullStack.atTick = some fullStack ∧ fullStack.cfg.wf = true ∧ fullStack.halt = false) :=
  ⟨⟨by decide, rfl, rfl⟩, by decide, rfl, rfl, by decide, rfl⟩

theorem witness_OnlyStackFaultsAreFatal :
    (∃ t, exec .ret State.reset = .next t ∧ t.halt = true) ∧ ∃ t, exec (.call 0) fullStack = .next t ∧ t.halt = true :=
  ⟨⟨_, rfl, rfl⟩, _, rfl, rfl⟩

/-- The stack clauses at their ends: empty, one entry, one left, full. -/
theorem witness_StackClauses : State.reset.sp = 0 ∧ { State.reset with sp := 1 }.sp ≠ 0 ∧
    { State.reset with sp := 15 }.sp < { State.reset with sp := 15 }.cfg.stackDepth ∧
    { State.reset with sp := 15 }.stack.length = { State.reset with sp := 15 }.cfg.stackDepth ∧
    fullStack.sp = fullStack.cfg.stackDepth ∧ fullStack.stack.length = fullStack.cfg.stackDepth := by decide

/-- Sixteen nested calls fill the stack. -/
theorem witness_NestedCallsReturnInReverse :
    State.reset.stack.length = State.reset.cfg.stackDepth ∧
    State.reset.sp + (List.replicate 16 ((0x202, 0x300) : Addr × Addr)).length ≤ State.reset.cfg.stackDepth := by decide

theorem witness_SkipsCompareOperands : leadingNibble 0x512F = 5 ∧ (fieldsOf 0x9001).n ≠ 0 := by decide

theorem witness_KeySkipsReadTheLatch : (3 : Key).val = ((withRegs [(5, 0x13)]).getV 5).toNat % 16 := by decide

theorem witness_PcFollowsTheAdvanceTable : ∃ t, exec (.ldVxK 6) State.reset = .next t ∧ t.pc = 0x1FE := ⟨_, rfl, rfl⟩

theorem witness_OnlyListedInstructionsTouchVF : (∃ t, exec (.load 14) State.reset = .next t) ∧
    setsFlag (.load 14) = false ∧ VF ∉ destRegs (.load 14) := ⟨⟨_, rfl⟩, rfl, by decide⟩

theorem witness_DumpThenLoadRestoresRegisters : ∃ t, exec (.dump 15) State.reset = .next t := ⟨_, rfl⟩

theorem witness_StoredBytesAreFetched : (∃ t, exec (.dump 1) State.reset = .next t) ∧ (1 : Reg) ≤ 1 := ⟨⟨_, rfl⟩, le_rfl⟩

theorem witness_OnlyStoresWriteMemory : (∃ t, exec (.ldB 5) (State.reset.setI 0xFFE) = .next t) ∧
    1 % 4096 ∉ storedAddrs (.ldB 5) (State.reset.setI 0xFFE) ∧ 0 ∈ storedAddrs (.ldB 5) (State.reset.setI 0xFFE) :=
  ⟨⟨_, rfl⟩, by decide, by decide⟩

theorem witness_DrawTwiceRestoresTheRaster :
    (0 : Reg) ≠ VF ∧ (14 : Reg) ≠ VF ∧ ∃ t, exec (.drw 0 14 15) (State.reset.setI 0x050) = .next t :=
  ⟨by decide, by decide, _, rfl⟩

/-- The key clauses at their ends: the lowest key, the highest key alone, no key. -/
theorem witness_KeyWaitTakesLowestKeyOrRewinds :
    ((State.reset.setKey 0 true).getKey 0 = true ∧ ∀ j : Key, j < 0 → (State.reset.setKey 0 true).getKey j = false) ∧
    ((State.reset.setKey 15 true).getKey 15 = true ∧
      ∀ j : Key, j < 15 → (State.reset.setKey 15 true).getKey j = false) ∧
    ∀ k, State.reset.getKey k = false := by decide

theorem witness_InstructionsLeaveHostStateAlone : ∃ t, exec (.ldDtVx 2) State.reset = .next t := ⟨_, rfl⟩

end Sys2Proof.Tests
end

section
/-! SUPPORT. Every execute step, every tick and every step of a well-formed configuration answers a next
state: a fatal condition and a halted tick are next states too (R164, R166, R171). -/

namespace Sys2Proof.Machine

/-- A return pops, or raises StackUnderflow (R101, R162): a next state either way. -/
theorem execRet_next (s : State) : ∃ t, execRet s = .next t := by
  unfold execRet
  cases s.pop with
  | ok r => exact ⟨_, rfl⟩
  | error c => exact ⟨_, rfl⟩

/-- A call pushes, or raises StackOverflow (R103, R163): a next state either way. -/
theorem execCall_next (nnn : Addr) (s : State) : ∃ t, execCall nnn s = .next t := by
  unfold execCall
  cases s.push s.pc with
  | ok u => exact ⟨_, rfl⟩
  | error c => exact ⟨_, rfl⟩

/-- The key wait takes a key, or rewinds `PC` (R152): a next state either way. -/
theorem execLdVxK_next (x : Reg) (s : State) : ∃ t, execLdVxK x s = .next t := by
  unfold execLdVxK
  cases s.firstKey with
  | some k => exact ⟨_, rfl⟩
  | none => exact ⟨_, rfl⟩

/-- Only the return, the call and the key wait branch on the state; the meaning of every other
instruction is one next state. -/
theorem exec_next (i : Instr) (s : State) : ∃ t, exec i s = .next t := by
  cases i with
  | ret => exact execRet_next s
  | call nnn => exact execCall_next nnn s
  | ldVxK x => exact execLdVxK_next x s
  | _ => exact ⟨_, rfl⟩

/-- The fatal decode error (R83) is a next state with `HALT` set. -/
theorem tick_noFamily {s : State} (h : s.halt = false) (hd : decode s.fetch = .noFamily) :
    tick s = .next (s.advancePc.raiseFatal .decodeFatal).endTick := by
  simp [tick, h, hd]

theorem tick_next (s : State) : ∃ t, tick s = .next t := by
  cases h : s.halt with
  | true => exact ⟨s, tick_halted h⟩
  | false =>
    cases hd : decode s.fetch with
    | instr i =>
      obtain ⟨t, ht⟩ := exec_next i s.advancePc
      exact ⟨t.endTick, by rw [tick_instr h hd, ht]; rfl⟩
    | miss => exact ⟨_, tick_miss h hd⟩
    | noFamily => exact ⟨_, tick_noFamily h hd⟩

theorem step_next {s : State} (hc : s.cfg.wf = true) : ∃ t, step s = .next t := by
  cases hi : s.inputs with
  | nil => rw [step_tick hc hi]; exact tick_next s
  | cons e es => rw [step_deliver hc hi]; exact deliver_next (tick_next _) e

/-- Settles O13: every event of a well-formed configuration completes, by the cases of the event, of the
decoder's answer and of the instruction; any other configuration is refused. -/
theorem stepAlwaysCompletes : Obligations.StepAlwaysCompletes :=
  ⟨fun _ hc => step_next hc, fun _ hc => step_badConfig hc⟩

end Sys2Proof.Machine
end

section
/-! SUPPORT. The cases of a tick and of a step that answer a next state, with everything each one knows. -/

namespace Sys2Proof.Machine

/-- A tick that answers a next state found the core halted, or ends after an executed instruction, a
decode miss or the fatal decode error (R81, R83, R170, R171). -/
theorem tick_cases {s t : State} (h : tick s = .next t) :
    (s.halt = true ∧ t = s) ∨
      (s.halt = false ∧ ∃ u, t = u.endTick ∧
        ((∃ i, decode s.fetch = .instr i ∧ exec i s.advancePc = .next u) ∨
          (decode s.fetch = .miss ∧ u = s.advancePc.emit (.decodeMiss s.fetch s.pc)) ∨
          (decode s.fetch = .noFamily ∧ u = s.advancePc.raiseFatal .decodeFatal))) := by
  cases hh : s.halt with
  | true =>
    rw [tick_halted hh] at h
    cases h
    exact .inl ⟨rfl, rfl⟩
  | false =>
    refine .inr ⟨rfl, ?_⟩
    cases hd : decode s.fetch with
    | instr i =>
      obtain ⟨u, hu⟩ := exec_next i s.advancePc
      rw [tick_instr hh hd, hu] at h
      cases h
      exact ⟨u, rfl, .inl ⟨i, rfl, hu⟩⟩
    | miss =>
      rw [tick_miss hh hd] at h
      cases h
      exact ⟨_, rfl, .inr (.inl ⟨rfl, rfl⟩)⟩
    | noFamily =>
      rw [tick_noFamily hh hd] at h
      cases h
      exact ⟨_, rfl, .inr (.inr ⟨rfl, rfl⟩)⟩

/-- A step that answers a next state had a well-formed configuration, and was a tick with nothing
pending or the delivery of the first pending event. -/
theorem step_cases {s t : State} (h : step s = .next t) :
    s.cfg.wf = true ∧ ((s.inputs = [] ∧ tick s = .next t) ∨
      ∃ e es, s.inputs = e :: es ∧ deliver e (s.withInputs es) = .next t) := by
  cases hc : s.cfg.wf with
  | false => rw [step_badConfig hc] at h; cases h
  | true =>
    refine ⟨rfl, ?_⟩
    cases hi : s.inputs with
    | nil => exact .inl ⟨rfl, step_tick hc hi ▸ h⟩
    | cons e es => exact .inr ⟨e, es, rfl, step_deliver hc hi ▸ h⟩

end Sys2Proof.Machine
end

section
/-! SUPPORT. The invariant of the machine (R39): the reset state has it, and every operation, every
instruction and every event keeps it. It speaks of the configuration, memory, the stack, the repeat
counter, `HALT` and `CAUSE`; an operation that writes none of these keeps each part as it stands. -/

namespace Sys2Proof.Machine.State.Inv

variable {s t : State}

/-- A reset establishes the invariant whatever the state was, when the configuration is well-formed. -/
theorem reinit (hc : s.cfg.wf = true) : s.reinit.Inv where
  cfg := hc
  mem := Memory.wf_nil
  sp := Nat.zero_le _
  stack := List.length_replicate
  wdCnt := Nat.zero_le _
  cause := by simp

theorem raiseFatal (h : s.Inv) (c : Cause) (hc : c ≠ .none) : (s.raiseFatal c).Inv :=
  { h with cause := by simp [hc] }

theorem memWrite (h : s.Inv) (a : Nat) (b : Byte) : (s.memWrite a b).Inv :=
  { h with mem := State.memWrite_wf h.mem a b }

theorem skipIf (h : s.Inv) (b : Bool) : (s.skipIf b).Inv := by
  cases b
  · exact h
  · exact { h with }

theorem drawSprite (h : s.Inv) (x y n : Nat) : (s.drawSprite x y n).Inv := by
  rw [State.drawSprite_frame]
  exact { h with }

theorem foldl_dumpReg (h : s.Inv) (ks : List Reg) : (ks.foldl State.dumpReg s).Inv := by
  rw [State.foldl_dumpReg_frame]
  exact { h with mem := State.foldl_dumpReg_wf ks h.mem }

theorem foldl_loadReg (h : s.Inv) (ks : List Reg) : (ks.foldl State.loadReg s).Inv := by
  rw [State.foldl_loadReg_frame]
  exact { h with }

/-- A return lowers `SP`, or raises StackUnderflow (R101, R162). -/
theorem execRet (h : s.Inv) : ∃ t, execRet s = .next t ∧ t.Inv := by
  unfold Machine.execRet
  by_cases h0 : s.sp = 0
  · rw [State.pop_empty h0]
    exact ⟨_, rfl, h.raiseFatal .stackUnderflow nofun⟩
  · rw [State.pop_ok h0]
    exact ⟨_, rfl, { h with sp := (Nat.sub_le _ _).trans h.sp }⟩

/-- A call raises `SP` only below `STACK_DEPTH`, and else raises StackOverflow (R103, R163). -/
theorem execCall (h : s.Inv) (nnn : Addr) : ∃ t, execCall nnn s = .next t ∧ t.Inv := by
  unfold Machine.execCall
  by_cases hd : s.sp = s.cfg.stackDepth
  · rw [State.push_full _ hd]
    exact ⟨_, rfl, h.raiseFatal .stackOverflow nofun⟩
  · rw [State.push_ok _ hd]
    exact ⟨_, rfl, { h with sp := lt_of_le_of_ne h.sp hd, stack := List.length_set.trans h.stack }⟩

theorem execLdVxK (h : s.Inv) (x : Reg) : ∃ t, execLdVxK x s = .next t ∧ t.Inv := by
  unfold Machine.execLdVxK
  cases s.firstKey with
  | some k => exact ⟨_, rfl, { h with }⟩
  | none => exact ⟨_, rfl, { h with }⟩

/-- Every instruction keeps the invariant. Only the return and the call write the stack or halt, and
only LD B and LD [I] write memory (R57, R166). -/
theorem exec (h : s.Inv) (i : Instr) : ∃ t, exec i s = .next t ∧ t.Inv := by
  cases i with
  | ret => exact h.execRet
  | call nnn => exact h.execCall nnn
  | ldVxK x => exact h.execLdVxK x
  | seImm | sneImm | seReg | sneReg | skp | sknp => exact ⟨_, rfl, h.skipIf _⟩
  | drw x y n =>
    have hv : (s.setV VF (flagByte false)).Inv := { h with }
    exact ⟨_, rfl, hv.drawSprite ..⟩
  | ldB x => exact ⟨_, rfl, ((h.memWrite ..).memWrite ..).memWrite ..⟩
  | dump x => exact ⟨_, rfl, h.foldl_dumpReg _⟩
  | load x => exact ⟨_, rfl, h.foldl_loadReg _⟩
  | _ => exact ⟨_, rfl, { h with }⟩

/-- The watchdog step leaves a counter of at most 100, or resets (R179). -/
theorem endTick (h : s.Inv) : s.endTick.Inv := by
  cases hh : s.halt with
  | true => rwa [State.endTick_halted hh]
  | false =>
    rw [State.endTick_running hh]
    obtain ⟨hle, he⟩ | ⟨-, he⟩ := s.watchdogStep_cases
    · rw [he]; exact { h with wdCnt := hle }
    · rw [he]; exact reinit h.cfg

theorem tick (h : s.Inv) (ht : tick s = .next t) : t.Inv := by
  have hadv : s.advancePc.Inv := { h with }
  obtain ⟨-, rfl⟩ | ⟨-, u, rfl, ⟨i, -, hi⟩ | ⟨-, rfl⟩ | ⟨-, rfl⟩⟩ := tick_cases ht
  · exact h
  · obtain ⟨v, hv, hinv⟩ := hadv.exec i
    cases hi.symm.trans hv
    exact hinv.endTick
  · exact endTick { hadv with }
  · exact (hadv.raiseFatal .decodeFatal nofun).endTick

theorem deliver (h : s.Inv) {e : HostEvent} (ht : deliver e s = .next t) : t.Inv := by
  cases e with
  | reset => cases ht; exact reinit h.cfg
  | tick => exact h.tick ht
  | frame | keyDown | keyUp => cases ht; exact { h with }

end Sys2Proof.Machine.State.Inv

namespace Sys2Proof.Machine

/-- Settles O14: the next state comes from a tick or from another event, and each keeps the invariant. -/
theorem stepKeepsInvariant : Obligations.StepKeepsInvariant := by
  intro s t h hs
  obtain ⟨-, ⟨-, ht⟩ | ⟨e, es, -, hd⟩⟩ := step_cases hs
  · exact h.tick ht
  · have hu : (s.withInputs es).Inv := { h with }
    exact hu.deliver hd

/-- Settles O15: the state after power-on is what a reset leaves of itself. -/
theorem resetMeetsInvariant : Obligations.ResetMeetsInvariant :=
  State.Inv.reinit (s := State.reset) (by decide)

end Sys2Proof.Machine
end

section
/-! SUPPORT. What each instruction may write, said once for all of them: the rules of `Frame` for the
named updates of the state, `writesOf`, and the frame of every instruction. -/

namespace Sys2Proof.Machine

/-- What an instruction may change of the state it executes in (R100 to R155). The two ends of RET, CALL
and LD Vx, K are told apart; a skip counts as writing `PC`, taken or not. -/
def writesOf (i : Instr) (s : State) : Writes :=
  match i with
  | .cls => { fb := true }
  | .ret => if s.sp = 0 then { halt := true } else { pc := true, sp := true }
  | .call _ => if s.sp = s.cfg.stackDepth then { halt := true } else { pc := true, sp := true, stack := true }
  | .jp _ | .jpV0 _ | .seImm _ _ | .sneImm _ _ | .seReg _ _ | .sneReg _ _ | .skp _ | .sknp _ => { pc := true }
  | .ldImm x _ | .addImm x _ | .ldReg x _ | .or x _ | .and x _ | .xor x _ | .ldVxDt x => { regs := [x] }
  | .addReg x _ | .sub x _ | .shr x _ | .subn x _ | .shl x _ => { regs := [x, VF] }
  | .rnd x _ => { regs := [x], draws := true }
  | .drw _ _ _ => { regs := [VF], fb := true }
  | .ldVxK x => if s.firstKey = none then { pc := true } else { regs := [x] }
  | .ldI _ | .addI _ | .ldF _ => { i := true }
  | .ldDtVx _ => { dt := true }
  | .ldStVx _ => { st := true }
  | .ldB _ | .dump _ => { mem := storedAddrs i s }
  | .load x => { regs := regsUpTo x }

end Sys2Proof.Machine

namespace Sys2Proof.Machine.Frame

variable {w : Writes} {s t u : State}

theorem refl (w : Writes) (s : State) : Frame w s s := by
  constructor <;> intros <;> trivial

theorem trans (h : Frame w s t) (h' : Frame w t u) : Frame w s u where
  regs r hr := (h'.regs r hr).trans (h.regs r hr)
  i hw := (h'.i hw).trans (h.i hw)
  pc hw := (h'.pc hw).trans (h.pc hw)
  sp hw := (h'.sp hw).trans (h.sp hw)
  stack hw := (h'.stack hw).trans (h.stack hw)
  dt hw := (h'.dt hw).trans (h.dt hw)
  st hw := (h'.st hw).trans (h.st hw)
  mem a ha := (h'.mem a ha).trans (h.mem a ha)
  fb hw x y := (h'.fb hw x y).trans (h.fb hw x y)
  halt hw := ⟨(h'.halt hw).1.trans (h.halt hw).1, (h'.halt hw).2.trans (h.halt hw).2⟩
  draws hw := (h'.draws hw).trans (h.draws hw)
  key := h'.key.trans h.key
  wdLast := h'.wdLast.trans h.wdLast
  wdCnt := h'.wdCnt.trans h.wdCnt
  cfg := h'.cfg.trans h.cfg
  inputs := h'.inputs.trans h.inputs
  diag := h'.diag.trans h.diag

/-- A loop stays in the frame of its turns. -/
theorem foldl {α : Type} {f : State → α → State} (hf : ∀ s a, Frame w s (f s a)) (l : List α) (s : State) :
    Frame w s (l.foldl f s) := by
  induction l generalizing s with
  | nil => exact refl w s
  | cons a l ih => exact (hf s a).trans (ih (f s a))

theorem setV {x : Reg} (hx : x ∈ w.regs) (b : Byte) : Frame w s (s.setV x b) :=
  { refl w s with regs := fun _ hr => s.getV_setV_ne b fun e => hr (e ▸ hx) }

theorem writeFlagged {x : Reg} (hx : x ∈ w.regs) (hf : VF ∈ w.regs) (f : Bool) (b : Byte) :
    Frame w s (s.writeFlagged x f b) :=
  (setV hf _).trans (setV hx b)

theorem setI (hw : w.i = true) (a : Addr) : Frame w s (s.setI a) :=
  { refl w s with i := by simp [hw] }

theorem setPc (hw : w.pc = true) (a : Addr) : Frame w s (s.setPc a) :=
  { refl w s with pc := by simp [hw] }

theorem skipIf (hw : w.pc = true) (b : Bool) : Frame w s (s.skipIf b) := by
  cases b
  · exact refl w s
  · exact setPc hw _

theorem setDt (hw : w.dt = true) (b : Byte) : Frame w s (s.setDt b) :=
  { refl w s with dt := by simp [hw] }

theorem setSt (hw : w.st = true) (b : Byte) : Frame w s (s.setSt b) :=
  { refl w s with st := by simp [hw] }

theorem draw (hw : w.draws = true) : Frame w s s.draw.2 :=
  { refl w s with draws := by simp [hw] }

theorem raiseFatal (hw : w.halt = true) (c : Cause) : Frame w s (s.raiseFatal c) :=
  { refl w s with halt := by simp [hw] }

theorem memWrite {a : Nat} (ha : a % 4096 ∈ w.mem) (b : Byte) : Frame w s (s.memWrite a b) :=
  { refl w s with
    mem := fun a' ha' => by
      have hne : a' % 4096 ≠ a % 4096 := fun e => ha' (e ▸ ha)
      rw [s.memRead_memWrite, if_neg hne] }

/-- A store through the `I` of `s`, in the same state or a later one (R130). -/
theorem storeAt {k : Nat} (hk : s.effAddr k ∈ w.mem) (b : Byte) : Frame w t (t.memWrite (s.effAddr k) b) :=
  memWrite ((s.effAddr_mod k).symm ▸ hk) b

theorem pixClear (hw : w.fb = true) : Frame w s s.pixClear :=
  { refl w s with fb := by simp [hw] }

theorem pixSet (hw : w.fb = true) (x y : Nat) (b : Bool) : Frame w s (s.pixSet x y b) := by
  unfold State.pixSet
  split
  · exact { refl w s with fb := by simp [hw] }
  · exact refl w s

theorem drawBit (hf : VF ∈ w.regs) (hw : w.fb = true) (x y : Nat) : Frame w s (s.drawBit x y) := by
  unfold State.drawBit
  split
  · exact (setV hf _).trans (pixSet hw ..)
  · exact pixSet hw ..

theorem drawRow (hf : VF ∈ w.regs) (hw : w.fb = true) (x y : Nat) (b : Byte) :
    Frame w s (s.drawRow x y b) := by
  refine foldl (fun t col => ?_) _ s
  split
  · exact drawBit hf hw ..
  · exact refl w t

theorem drawSprite (hf : VF ∈ w.regs) (hw : w.fb = true) (x y n : Nat) : Frame w s (s.drawSprite x y n) :=
  foldl (fun _ _ => drawRow hf hw ..) _ s

theorem storeDigits (h : [s.effAddr 0, s.effAddr 1, s.effAddr 2] ⊆ w.mem) (a : Byte) :
    Frame w s (s.storeDigits a) := by
  have h0 : s.effAddr 0 ∈ w.mem := h (.head _)
  have h1 : s.effAddr 1 ∈ w.mem := h (.tail _ (.head _))
  have h2 : s.effAddr 2 ∈ w.mem := h (.tail _ (.tail _ (.head _)))
  exact ((storeAt h0 _).trans (storeAt h1 _)).trans (storeAt h2 _)

theorem foldl_dumpReg {ks : List Reg} (h : ∀ k ∈ ks, s.effAddr k.val ∈ w.mem) :
    Frame w s (ks.foldl State.dumpReg s) := by
  induction ks generalizing s with
  | nil => exact refl w s
  | cons k ks ih =>
    obtain ⟨hk, hks⟩ := List.forall_mem_cons.1 h
    exact (storeAt hk _).trans (ih (s := s.dumpReg k) hks)

theorem foldl_loadReg {ks : List Reg} (h : ∀ k ∈ ks, k ∈ w.regs) : Frame w s (ks.foldl State.loadReg s) := by
  induction ks generalizing s with
  | nil => exact refl w s
  | cons k ks ih =>
    obtain ⟨hk, hks⟩ := List.forall_mem_cons.1 h
    exact (setV hk _).trans (ih hks)

end Sys2Proof.Machine.Frame

namespace Sys2Proof.Machine

theorem execRet_frame (s : State) : ∃ t, execRet s = .next t ∧ Frame (writesOf .ret s) s t := by
  unfold execRet writesOf
  by_cases h0 : s.sp = 0
  · rw [State.pop_empty h0, if_pos h0]
    exact ⟨_, rfl, .raiseFatal rfl _⟩
  · rw [State.pop_ok h0, if_neg h0]
    exact ⟨_, rfl, { Frame.refl _ s with pc := nofun, sp := nofun }⟩

theorem execCall_frame (nnn : Addr) (s : State) :
    ∃ t, execCall nnn s = .next t ∧ Frame (writesOf (.call nnn) s) s t := by
  unfold execCall writesOf
  by_cases hd : s.sp = s.cfg.stackDepth
  · rw [State.push_full _ hd, if_pos hd]
    exact ⟨_, rfl, .raiseFatal rfl _⟩
  · rw [State.push_ok _ hd, if_neg hd]
    exact ⟨_, rfl, { Frame.refl _ s with pc := nofun, sp := nofun, stack := nofun }⟩

theorem execLdVxK_frame (x : Reg) (s : State) :
    ∃ t, execLdVxK x s = .next t ∧ Frame (writesOf (.ldVxK x) s) s t := by
  unfold execLdVxK writesOf
  cases s.firstKey with
  | some k => exact ⟨_, rfl, .setV (List.mem_singleton_self x) _⟩
  | none => exact ⟨_, rfl, .setPc rfl _⟩

/-- Every instruction answers a next state that differs at most in what `writesOf` names. -/
theorem exec_frame (i : Instr) (s : State) : ∃ t, exec i s = .next t ∧ Frame (writesOf i s) s t := by
  cases i with
  | cls => exact ⟨_, rfl, .pixClear rfl⟩
  | ret => exact execRet_frame s
  | call nnn => exact execCall_frame nnn s
  | jp | jpV0 => exact ⟨_, rfl, .setPc rfl _⟩
  | seImm | sneImm | seReg | sneReg | skp | sknp => exact ⟨_, rfl, .skipIf rfl _⟩
  | ldImm x | addImm x | ldReg x | or x | and x | xor x | ldVxDt x =>
    exact ⟨_, rfl, .setV (List.mem_singleton_self x) _⟩
  | addReg | sub | shr | subn | shl =>
    exact ⟨_, rfl, .writeFlagged (.head _) (.tail _ (.head _)) _ _⟩
  | rnd x nn => exact ⟨_, rfl, (Frame.draw rfl).trans (.setV (List.mem_singleton_self x) _)⟩
  | drw x y n =>
    have hf : VF ∈ [VF] := List.mem_singleton_self VF
    exact ⟨_, rfl, (Frame.setV hf _).trans (.drawSprite hf rfl ..)⟩
  | ldVxK x => exact execLdVxK_frame x s
  | ldI | addI | ldF => exact ⟨_, rfl, .setI rfl _⟩
  | ldDtVx x => exact ⟨_, rfl, .setDt rfl _⟩
  | ldStVx x => exact ⟨_, rfl, .setSt rfl _⟩
  | ldB x => exact ⟨_, rfl, .storeDigits (List.Subset.refl _) _⟩
  | dump x => exact ⟨_, rfl, .foldl_dumpReg fun k hk => List.mem_map_of_mem hk⟩
  | load x => exact ⟨_, rfl, .foldl_loadReg fun _ hk => hk⟩

/-- `exec_frame`, of a given next state. -/
theorem frame_of_exec {i : Instr} {s t : State} (h : exec i s = .next t) : Frame (writesOf i s) s t := by
  obtain ⟨u, hu, hf⟩ := exec_frame i s
  cases h.symm.trans hu
  exact hf

/-- Outside the six flag setters an instruction writes only its destination registers (R22). -/
theorem writesOf_regs_subset {i : Instr} (h : setsFlag i = false) (s : State) :
    (writesOf i s).regs ⊆ destRegs i := by
  cases i with
  | addReg | sub | shr | subn | shl | drw => cases h
  | ret | call => simp only [writesOf]; split <;> exact List.nil_subset _
  | ldVxK x =>
    simp only [writesOf]
    split
    · exact List.nil_subset _
    · exact List.Subset.refl _
  | _ => exact List.Subset.refl _

/-- Settles O39: VF is not among the registers the instruction writes. -/
theorem onlyListedInstructionsTouchVF : Obligations.OnlyListedInstructionsTouchVF :=
  fun _ s _ h hs hd => (frame_of_exec h).regs VF fun hm => hd (writesOf_regs_subset hs s hm)

/-- Settles O54: these fields are in the frame of every instruction. -/
theorem instructionsLeaveHostStateAlone : Obligations.InstructionsLeaveHostStateAlone := by
  intro i s t h
  have hf := frame_of_exec h
  exact ⟨hf.key, hf.wdLast, hf.wdCnt, hf.cfg, hf.inputs, hf.diag⟩

end Sys2Proof.Machine
end

section
/-! SUPPORT. No event changes the configuration (R36). -/

namespace Sys2Proof.Machine

@[simp] theorem State.endTick_cfg (s : State) : s.endTick.cfg = s.cfg := by
  cases h : s.halt with
  | true => rw [State.endTick_halted h]
  | false =>
    rw [State.endTick_running h]
    obtain ⟨-, he⟩ | ⟨-, he⟩ := s.watchdogStep_cases
    · rw [he]
    · rw [he]; rfl

theorem tick_cfg {s t : State} (h : tick s = .next t) : t.cfg = s.cfg := by
  obtain ⟨-, rfl⟩ | ⟨-, u, rfl, ⟨i, -, hi⟩ | ⟨-, rfl⟩ | ⟨-, rfl⟩⟩ := tick_cases h
  · rfl
  · exact u.endTick_cfg.trans (frame_of_exec hi).cfg
  · exact State.endTick_cfg _
  · exact State.endTick_cfg _

theorem deliver_cfg {e : HostEvent} {s t : State} (h : deliver e s = .next t) : t.cfg = s.cfg := by
  cases e with
  | tick => exact tick_cfg h
  | reset | frame | keyDown | keyUp => cases h; rfl

/-- Settles O16: the next state comes from a tick or from another event, and neither writes it. -/
theorem stepKeepsConfiguration : Obligations.StepKeepsConfiguration := by
  intro s t h
  obtain ⟨-, ⟨-, ht⟩ | ⟨e, es, -, hd⟩⟩ := step_cases h
  · exact tick_cfg ht
  · exact (deliver_cfg hd).trans (s.withInputs_cfg es)

end Sys2Proof.Machine
end

section
/-! SUPPORT. Where `PC` is after an instruction (R25): the return, the call and the key wait branch on the
state, the skips on their condition, the jumps go to their address, and the others leave `PC` alone. -/

namespace Sys2Proof.Machine

theorem execRet_pc {s t : State} (h : execRet s = .next t) :
    t.pc = if s.sp = 0 then s.pc else s.stack.getD (s.sp - 1) 0 := by
  unfold execRet at h
  by_cases h0 : s.sp = 0
  · rw [State.pop_empty h0] at h
    cases h
    exact (if_pos h0).symm
  · rw [State.pop_ok h0] at h
    cases h
    exact (if_neg h0).symm

theorem execCall_pc {nnn : Addr} {s t : State} (h : execCall nnn s = .next t) :
    t.pc = if s.sp = s.cfg.stackDepth then s.pc else nnn := by
  unfold execCall at h
  by_cases hd : s.sp = s.cfg.stackDepth
  · rw [State.push_full _ hd] at h
    cases h
    exact (if_pos hd).symm
  · rw [State.push_ok _ hd] at h
    cases h
    exact (if_neg hd).symm

theorem execLdVxK_pc {x : Reg} {s t : State} (h : execLdVxK x s = .next t) :
    t.pc = if ∃ k : Key, s.getKey k then s.pc else s.pc - 2 := by
  unfold execLdVxK at h
  cases hk : s.firstKey with
  | some k =>
    rw [hk] at h
    cases h
    exact (if_pos ⟨k, State.firstKey_pressed hk⟩).symm
  | none =>
    rw [hk] at h
    cases h
    have hn : ¬∃ k : Key, s.getKey k := by simpa using State.firstKey_none.1 hk
    exact (if_neg hn).symm

theorem State.skipIf_not_pc (s : State) (b : Bool) :
    (s.skipIf (!b)).pc = if b then s.pc else s.pc + 2 := by
  cases b <;> rfl

/-- Settles O32: by the instruction; one that does not write `PC` is settled by its frame. -/
theorem pcFollowsTheAdvanceTable : Obligations.PcFollowsTheAdvanceTable := by
  intro i s t h
  cases i with
  | ret => exact execRet_pc h
  | call nnn => exact execCall_pc h
  | ldVxK x => exact execLdVxK_pc h
  | jp | jpV0 => cases h; rfl
  | seImm | sneImm | seReg | sneReg | skp => cases h; simp [pcAfter]
  | sknp x => cases h; exact s.skipIf_not_pc _
  | _ => exact (frame_of_exec h).pc rfl

end Sys2Proof.Machine
end

section
/-! SUPPORT. What memory holds after a reset (R58), and the values of the reset table (R37). -/

namespace Sys2Proof.Machine

/-- The font lies at 0x050 to 0x09F (R58, R59). -/
theorem resetByte_font (c : Config) {j : Nat} (hj : j < 80) : resetByte c (0x050 + j) = c.font.getD j 0 := by
  rw [resetByte, if_neg (by omega), if_pos (by omega), Nat.add_sub_cancel_left]

/-- Outside the font and the image memory is cleared (R58). -/
theorem resetByte_cleared (c : Config) {a : Nat} (hf : ¬(0x050 ≤ a ∧ a < 0x0A0))
    (hr : ¬(0x200 ≤ a ∧ a < 0x200 + c.rom.length)) : resetByte c a = 0 := by
  unfold resetByte
  by_cases ha : 0x200 ≤ a
  · rw [if_pos ha, List.getD_eq_default _ _ (by omega)]
  · rw [if_neg ha, if_neg hf]

/-- Settles O17: the state after power-on is what a reset leaves of itself; its image is empty. -/
theorem resetStateIsCanonical : Obligations.ResetStateIsCanonical := by
  have hread (a : Nat) (ha : a < 4096) : State.reset.memRead a = resetByte State.reset.cfg a := by
    rw [State.memRead, Nat.mod_eq_of_lt ha]; rfl
  refine ⟨State.reset.reinit_getV, rfl, rfl, rfl, rfl, rfl, State.reset.pixGet_reinit, ?_, rfl, rfl, rfl, rfl,
    fun j hj => ?_, fun a ha hf => ?_⟩
  · simp [State.getKey, State.reset]
  · rw [hread _ (by omega), resetByte_font _ hj]
  · have hempty : State.reset.cfg.rom.length = 0 := rfl
    rw [hread a ha, resetByte_cleared _ hf (by omega)]

end Sys2Proof.Machine
end

section
/-! SUPPORT. Memory as the fetch and the instructions see it (R52 to R57, R64): the two bytes a fetch
reads, a word the host places, the bytes a register dump stored, and the frame of memory. -/

namespace Sys2Proof.Machine

/-- Settles O45: read after write at an address mod 4096; the write is an update of `mem` alone. -/
theorem memoryReadsWhatWasWritten : Obligations.MemoryReadsWhatWasWritten :=
  fun s a a' b => ⟨s.memRead_memWrite a a' b, rfl⟩

/-- The address after `a` wraps at 12 bits (R24, R55). -/
theorem addr_succ_toNat (a : Addr) : (a + 1).toNat = (a.toNat + 1) % 4096 := BitVec.toNat_add a 1

theorem wordOf_toNat (hi lo : Byte) : (wordOf hi lo).toNat = 256 * hi.toNat + lo.toNat := by
  rw [wordOf, BitVec.toNat_append, Nat.shiftLeft_eq, Nat.mul_comm, ← Nat.two_pow_add_eq_or_of_lt lo.isLt]

theorem wordOf_bytes (w : Word) : wordOf (w.extractLsb' 8 8) (w.extractLsb' 0 8) = w := by
  apply BitVec.eq_of_toNat_eq
  rw [wordOf_toNat]
  simp only [BitVec.extractLsb'_toNat, Nat.shiftRight_eq_div_pow]
  omega

/-- The second byte of a fetch lies at the next 12-bit address (R52, R55). -/
theorem State.fetch_eq (s : State) : s.fetch = wordOf (s.memRead s.pc.toNat) (s.memRead (s.pc + 1).toNat) := by
  rw [addr_succ_toNat, State.memRead_mod, State.fetch]

/-- Settles O10: a fetch reads the bytes at `PC` and `PC + 1`, and the first one is the high half. -/
theorem fetchIsBigEndian : Obligations.FetchIsBigEndian := by
  intro s
  rw [State.fetch_eq, wordOf_toNat]

/-- Memory after a placed word: its high byte at `PC`, its low byte at `PC + 1` (R54; assumption 11). -/
theorem State.placeFetch_memRead (s : State) (w : Word) (a : Nat) :
    (s.placeFetch w).memRead a =
      if a % 4096 = (s.pc + 1).toNat then w.extractLsb' 0 8
      else if a % 4096 = s.pc.toNat then w.extractLsb' 8 8 else s.memRead a := by
  have hw : (s.placeFetch w).memRead a =
      ((s.memWrite s.pc.toNat (w.extractLsb' 8 8)).memWrite (s.pc.toNat + 1) (w.extractLsb' 0 8)).memRead a := rfl
  rw [hw, State.memRead_memWrite, State.memRead_memWrite, addr_succ_toNat, Nat.mod_eq_of_lt s.pc.isLt]

@[simp] theorem State.placeFetch_pc (s : State) (w : Word) : (s.placeFetch w).pc = s.pc := rfl

theorem State.placeFetch_fetch (s : State) (w : Word) : (s.placeFetch w).fetch = w := by
  have hlt : s.pc.toNat < 4096 := s.pc.isLt
  have hne : s.pc.toNat ≠ (s.pc + 1).toNat := by rw [addr_succ_toNat]; omega
  rw [State.fetch_eq, State.placeFetch_pc, State.placeFetch_memRead, State.placeFetch_memRead,
    Nat.mod_eq_of_lt hlt, Nat.mod_eq_of_lt (s.pc + 1).isLt, if_neg hne, if_pos rfl, if_pos rfl, wordOf_bytes]

/-- Settles O9: the word's two bytes are the only ones written, and no event is pending. -/
theorem placedWordIsFetchedNext : Obligations.PlacedWordIsFetchedNext := by
  intro s nbits w
  refine ⟨s.placeFetch_fetch _, rfl, rfl, rfl, rfl, fun a h0 h1 => ?_⟩
  rw [State.withFetchWord, State.placeFetch_memRead, if_neg h1, if_neg h0]

/-- What a register dump stored lies at `I + k` (R135). -/
theorem execDump_memRead {x : Reg} {s t : State} (h : exec (.dump x) s = .next t) {k : Reg} (hk : k ≤ x) :
    t.memRead (s.effAddr k.val) = s.getV k := by
  cases h
  exact State.foldl_dumpReg_memRead (regsUpTo_nodup x) s (mem_regsUpTo.2 hk)

/-- Settles O46: a fetch from `I` reads what the dump stored of V0 and V1. -/
theorem storedBytesAreFetched : Obligations.StoredBytesAreFetched := by
  intro s t x h hx
  have h0 : t.memRead s.i.toNat = s.getV 0 := by
    rw [← execDump_memRead h (Fin.zero_le x), State.effAddr, State.memRead_mod]; rfl
  have h1 : t.memRead (s.i.toNat + 1) = s.getV 1 := by
    rw [← execDump_memRead h hx, State.effAddr, State.memRead_mod]; rfl
  rw [State.fetch, State.setPc_pc, State.setPc_memRead, State.setPc_memRead, h0, h1]

/-- The addresses in an instruction's frame are those it stores to (R57). -/
theorem writesOf_mem (i : Instr) (s : State) : (writesOf i s).mem = storedAddrs i s := by
  cases i with
  | ret | call | ldVxK => simp only [writesOf]; split <;> rfl
  | _ => rfl

/-- Settles O47: the byte is in the frame of the instruction. -/
theorem onlyStoresWriteMemory : Obligations.OnlyStoresWriteMemory := by
  intro i s t a h ha
  exact (frame_of_exec h).mem a (writesOf_mem i s ▸ ha)

end Sys2Proof.Machine
end

section
/-! SUPPORT. The decoder against the encoder and the opcode map (R72 to R86). Three facts carry the family:
the decoder gives back every encoded instruction, an instruction it answers is encoded by the word, and a
word that selects a row is decoded to an instruction of that row. -/

namespace Sys2Proof

/-- Settles O2: each format puts the family into the leading nibble and each operand into the field from
which the decoder takes it (R72, R73). -/
theorem decodeOfEncodeIsTheInstruction : Obligations.DecodeOfEncodeIsTheInstruction := by
  intro i
  cases i with
  | cls | ret => decide
  | jp | call | ldI | jpV0 => simp [encode, decode, leadingNibble_encodeNNN, nnn_encodeNNN]
  | seImm | sneImm | ldImm | addImm | rnd =>
    simp [encode, decode, leadingNibble_encodeXNN, x_encodeXNN, nn_encodeXNN]
  | seReg | sneReg | drw =>
    simp [encode, decode, leadingNibble_encodeXY, x_encodeXY, y_encodeXY, n_encodeXY]
  | ldReg | or | and | xor | addReg | sub | shr | subn | shl =>
    simp [encode, decode, decodeFamily8, leadingNibble_encodeXY, x_encodeXY, y_encodeXY, n_encodeXY]
  | skp | sknp => simp [encode, decode, decodeFamilyE, leadingNibble_encodeXNN, x_encodeXNN, nn_encodeXNN]
  | ldVxDt | ldVxK | ldDtVx | ldStVx | addI | ldF | ldB | dump | load =>
    simp [encode, decode, decodeFamilyF, leadingNibble_encodeXNN, x_encodeXNN, nn_encodeXNN]

/-- Settles O1: each word is closed, and so is what the decoder answers to it. -/
theorem writtenOutWordsDecode : Obligations.WrittenOutWordsDecode := by
  unfold Obligations.WrittenOutWordsDecode
  decide

/-! ### A word is put together from its fields -/

/-- Settles O4: each field is the word shifted right by its lowest bit and cut to its width. -/
theorem fieldsLieAtFixedBits : Obligations.FieldsLieAtFixedBits := by
  intro w
  simp [fieldsOf, BitVec.extractLsb'_toNat, Nat.shiftRight_eq_div_pow]

theorem leadingNibble_lt (w : Word) : leadingNibble w < 16 := (w.extractLsb' 12 4).isLt

theorem encodeNNN_fieldsOf {w : Word} {op : BitVec 4} (hop : leadingNibble w = op.toNat) :
    encodeNNN op (fieldsOf w).nnn = w := by
  simp only [encodeNNN, fieldsOf, ← BitVec.eq_of_toNat_eq hop]
  rw [BitVec.extractLsb'_append_extractLsb'_eq_extractLsb' (start₂ := 12) rfl, BitVec.extractLsb'_eq_self]

theorem encodeXNN_fieldsOf {w : Word} {op : BitVec 4} (hop : leadingNibble w = op.toNat) :
    encodeXNN op (fieldsOf w).x (fieldsOf w).nn = w := by
  simp only [encodeXNN, fieldsOf, ← BitVec.eq_of_toNat_eq hop, BitVec.ofFin_toFin]
  rw [BitVec.extractLsb'_append_extractLsb'_eq_extractLsb' (start₂ := 12) rfl,
    BitVec.extractLsb'_append_extractLsb'_eq_extractLsb' (start₂ := 8) rfl, BitVec.extractLsb'_eq_self]

theorem encodeXY_fieldsOf {w : Word} {op : BitVec 4} (hop : leadingNibble w = op.toNat) :
    encodeXY op (fieldsOf w).x (fieldsOf w).y (fieldsOf w).n = w := by
  simp only [encodeXY, fieldsOf, ← BitVec.eq_of_toNat_eq hop, BitVec.ofFin_toFin]
  rw [BitVec.extractLsb'_append_extractLsb'_eq_extractLsb' (start₂ := 12) rfl,
    BitVec.extractLsb'_append_extractLsb'_eq_extractLsb' (start₂ := 8) rfl,
    BitVec.extractLsb'_append_extractLsb'_eq_extractLsb' (start₂ := 4) rfl, BitVec.extractLsb'_eq_self]

/-- Where the low byte tells the instructions of a family apart (R77). -/
theorem encodeXNN_of_nn {w : Word} {op : BitVec 4} (hop : leadingNibble w = op.toNat)
    {nn : Byte} (h : (fieldsOf w).nn.toNat = nn.toNat) : encodeXNN op (fieldsOf w).x nn = w := by
  rw [← BitVec.eq_of_toNat_eq h, encodeXNN_fieldsOf hop]

/-- Where the lowest nibble tells the instructions of a family apart (R77). -/
theorem encodeXY_of_n {w : Word} {op : BitVec 4} (hop : leadingNibble w = op.toNat)
    {n : BitVec 4} (h : (fieldsOf w).n.toNat = n.toNat) :
    encodeXY op (fieldsOf w).x (fieldsOf w).y n = w := by
  rw [← BitVec.eq_of_toNat_eq h, encodeXY_fieldsOf hop]

/-! ### What the decoder answers -/

/-- What the decoder may answer to `w`: an instruction only when `w` is its word, and never the fatal
decode error. -/
def Decoded.Faithful (w : Word) : Decoded → Prop
  | .instr i => encode i = w
  | .miss => True
  | .noFamily => False

theorem decodeFamily8_faithful {w : Word} (hop : leadingNibble w = 8) :
    (decodeFamily8 (fieldsOf w)).Faithful w := by
  unfold decodeFamily8
  split
  case h_10 => trivial
  all_goals exact encodeXY_of_n (op := 8) hop ‹_›

theorem decodeFamilyE_faithful {w : Word} (hop : leadingNibble w = 0xE) :
    (decodeFamilyE (fieldsOf w)).Faithful w := by
  unfold decodeFamilyE
  split
  case h_3 => trivial
  all_goals exact encodeXNN_of_nn (op := 0xE) hop ‹_›

theorem decodeFamilyF_faithful {w : Word} (hop : leadingNibble w = 0xF) :
    (decodeFamilyF (fieldsOf w)).Faithful w := by
  unfold decodeFamilyF
  split
  case h_10 => trivial
  all_goals exact encodeXNN_of_nn (op := 0xF) hop ‹_›

theorem decode_faithful (w : Word) : (decode w).Faithful w := by
  simp only [decode]
  split
  next =>
    split
    next h => exact h.symm
    next =>
      split
      next h => exact h.symm
      next => trivial
  next hop => exact encodeNNN_fieldsOf (op := 1) hop
  next hop => exact encodeNNN_fieldsOf (op := 2) hop
  next hop => exact encodeXNN_fieldsOf (op := 3) hop
  next hop => exact encodeXNN_fieldsOf (op := 4) hop
  next hop =>
    split
    next h => exact encodeXY_of_n (op := 5) hop (congrArg BitVec.toNat h)
    next => trivial
  next hop => exact encodeXNN_fieldsOf (op := 6) hop
  next hop => exact encodeXNN_fieldsOf (op := 7) hop
  next hop => exact decodeFamily8_faithful hop
  next hop =>
    split
    next h => exact encodeXY_of_n (op := 9) hop (congrArg BitVec.toNat h)
    next => trivial
  next hop => exact encodeNNN_fieldsOf (op := 0xA) hop
  next hop => exact encodeNNN_fieldsOf (op := 0xB) hop
  next hop => exact encodeXNN_fieldsOf (op := 0xC) hop
  next hop => exact encodeXY_fieldsOf (op := 0xD) hop
  next hop => exact decodeFamilyE_faithful hop
  next hop => exact decodeFamilyF_faithful hop
  next =>
    have hlt := leadingNibble_lt w
    grind

/-- Settles O3: an instruction the decoder answers is encoded by the word. -/
theorem encodeOfDecodeIsTheWord : Obligations.EncodeOfDecodeIsTheWord := by
  intro w i h
  have hw := decode_faithful w
  rwa [h] at hw

/-- Settles O7: the sixteen leading nibbles all have a family. -/
theorem everyWordHasAFamily : Obligations.EveryWordHasAFamily := by
  intro w h
  have hw := decode_faithful w
  rwa [h] at hw

/-! ### The rows of the opcode map -/

/-- Bits that a row's mask keeps are, in a word that selects it, those of the row's pattern (R75). -/
theorem OpRow.extractLsb'_of_selects {r : OpRow} {w : Word} (h : r.selects w) {start len : Nat}
    (hm : r.mask.extractLsb' start len = BitVec.allOnes len) :
    w.extractLsb' start len = r.pattern.extractLsb' start len := by
  rw [← h, BitVec.extractLsb'_and, hm, BitVec.and_allOnes]

theorem leadingNibble_of_selects {r : OpRow} {w : Word} (h : r.selects w)
    (hm : r.mask.extractLsb' 12 4 = BitVec.allOnes 4) : leadingNibble w = (r.pattern.extractLsb' 12 4).toNat :=
  congrArg BitVec.toNat (OpRow.extractLsb'_of_selects h hm)

/-- A word that selects a row decodes to an instruction of that row: the mask keeps the bits by which the
decoder tells the row from the others (R75, R77). -/
theorem decode_of_selects {i : Instr} {w : Word} (h : (opcodeRow i).selects w) :
    ∃ j, decode w = .instr j ∧ opcodeRow j = opcodeRow i := by
  cases i with
  | cls | ret =>
    have hw := OpRow.extractLsb'_of_selects (start := 0) (len := 16) h rfl
    rw [BitVec.extractLsb'_eq_self, BitVec.extractLsb'_eq_self] at hw
    subst hw
    exact ⟨_, by decide, rfl⟩
  | jp | call | ldI | jpV0 | seImm | sneImm | ldImm | addImm | rnd | drw =>
    simp only [opcodeRow] at h
    have hop := leadingNibble_of_selects h rfl
    simp [decode, hop, opcodeRow]
  | seReg | sneReg | ldReg | or | and | xor | addReg | sub | shr | subn | shl =>
    simp only [opcodeRow] at h
    have hop := leadingNibble_of_selects h rfl
    have hn : (fieldsOf w).n = _ := OpRow.extractLsb'_of_selects h rfl
    simp [decode, decodeFamily8, hop, hn, opcodeRow]
  | skp | sknp | ldVxDt | ldVxK | ldDtVx | ldStVx | addI | ldF | ldB | dump | load =>
    simp only [opcodeRow] at h
    have hop := leadingNibble_of_selects h rfl
    have hnn : (fieldsOf w).nn = _ := OpRow.extractLsb'_of_selects h rfl
    simp [decode, decodeFamilyE, decodeFamilyF, hop, hnn, opcodeRow]

/-- The table lists one instruction per constructor, and a row does not depend on the operands. -/
theorem opcodeRow_mem (i : Instr) : opcodeRow i ∈ opcodeTable := by
  cases i <;> simp [opcodeTable, opcodeRow]

theorem exists_opcodeRow {r : OpRow} (h : r ∈ opcodeTable) : ∃ i, opcodeRow i = r := by
  obtain ⟨i, -, hi⟩ := List.mem_map.1 h
  exact ⟨i, hi⟩

/-- The word of an instruction selects its row, by what the row's mask leaves of its format (R75, R86). -/
theorem opcodeRow_selects_encode (i : Instr) : (opcodeRow i).selects (encode i) := by
  cases i with
  | cls | ret => decide
  | jp | call | ldI | jpV0 => exact encodeNNN_row _ _
  | seImm | sneImm | ldImm | addImm | rnd => exact encodeXNN_row _ _ _
  | drw => exact encodeXY_row _ _ _ _
  | seReg | sneReg | ldReg | or | and | xor | addReg | sub | shr | subn | shl => exact encodeXY_row_low _ _ _ _
  | skp | sknp | ldVxDt | ldVxK | ldDtVx | ldStVx | addI | ldF | ldB | dump | load =>
    exact encodeXNN_row_low _ _ _

/-- Settles O5: the word of a decoded instruction selects its row; a word that selects a row is decoded to an
instruction, and another one to none. -/
theorem decodeFollowsTheOpcodeMap : Obligations.DecodeFollowsTheOpcodeMap := by
  have hrow (w : Word) (i : Instr) (h : decode w = .instr i) : (opcodeRow i).selects w :=
    encodeOfDecodeIsTheWord w i h ▸ opcodeRow_selects_encode i
  refine ⟨hrow, fun w => ⟨fun hmiss r hr hw => ?_, fun hnone => ?_⟩⟩
  · obtain ⟨i, rfl⟩ := exists_opcodeRow hr
    obtain ⟨j, hj, -⟩ := decode_of_selects hw
    cases hmiss.symm.trans hj
  · cases hd : decode w with
    | instr i => exact absurd (hrow w i hd) (hnone _ (opcodeRow_mem i))
    | miss => rfl
    | noFamily => exact absurd hd (everyWordHasAFamily w)

/-- Settles O6: the word decodes to one instruction, and the rows of both are its row. -/
theorem noWordSelectsTwoRows : Obligations.NoWordSelectsTwoRows := by
  intro w r r' hr hr' hw hw'
  obtain ⟨i, rfl⟩ := exists_opcodeRow hr
  obtain ⟨i', rfl⟩ := exists_opcodeRow hr'
  obtain ⟨j, hj, hji⟩ := decode_of_selects hw
  obtain ⟨j', hj', hji'⟩ := decode_of_selects hw'
  cases hj.symm.trans hj'
  exact hji.symm.trans hji'

end Sys2Proof

namespace Sys2Proof.Machine

/-- Settles O11: a word that selects no row is a decode miss, and its tick does not halt the core. -/
theorem decodeMissOnlyAdvancesPc : Obligations.DecodeMissOnlyAdvancesPc := by
  intro s u hc hu hh hnone
  have hmiss : decode u.fetch = .miss := (decodeFollowsTheOpcodeMap.2 _).2 hnone
  rw [step_atTick hc hu, tick_miss hh hmiss, State.endTick_running (s := u.advancePc.emit _) hh]
  rfl

end Sys2Proof.Machine
end

section
/-! SUPPORT. Control flow (R101 to R108): the jumps and the comparing skips, by the address table and the frame
of every instruction; the return and the call, by the two ends of each; and nested calls, by the return
addresses the stack holds. -/

namespace Sys2Proof.Machine

/-- Where an instruction leaves `PC` and what else it may change, of the one state it answers. -/
theorem exec_pc_and_frame (i : Instr) (s : State) :
    ∃ t, exec i s = .next t ∧ t.pc = pcAfter i s ∧ Frame (writesOf i s) s t := by
  obtain ⟨t, ht, hf⟩ := exec_frame i s
  exact ⟨t, ht, pcFollowsTheAdvanceTable i s t ht, hf⟩

/-! ### Jumps and skips -/

theorem addToAddr_toNat (base : Addr) (b : Byte) : (addToAddr base b).toNat = (base.toNat + b.toNat) % 4096 :=
  BitVec.toNat_ofNat _ 12

/-- Settles O25: the row of JP in the address table and its frame. -/
theorem jumpGoesToItsAddress : Obligations.JumpGoesToItsAddress :=
  fun s nnn => exec_pc_and_frame (.jp nnn) s

/-- Settles O26: the row of JP V0 in the address table, as an unsigned sum. -/
theorem indexedJumpAddsV0 : Obligations.IndexedJumpAddsV0 := by
  intro s nnn
  obtain ⟨t, ht, hpc, hf⟩ := exec_pc_and_frame (.jpV0 nnn) s
  refine ⟨t, ht, ?_, hf⟩
  rw [hpc, Nat.add_comm]
  exact addToAddr_toNat nnn (s.getV 0)

/-- Families 5 and 9 have a row for `N = 0` only (R75, R81). -/
theorem decode_miss_of_n_ne_zero {w : Word} (hop : leadingNibble w = 5 ∨ leadingNibble w = 9)
    (hn : (fieldsOf w).n ≠ 0) : decode w = .miss := by
  obtain h5 | h9 := hop
  · simp only [decode, h5, if_neg hn]
  · simp only [decode, h9, if_neg hn]

/-- Settles O30: the misses by the decoder's families, each skip by its row in the address table and its frame. -/
theorem skipsCompareOperands : Obligations.SkipsCompareOperands :=
  ⟨fun _ => decode_miss_of_n_ne_zero, fun s x y nn =>
    ⟨exec_pc_and_frame (.seImm x nn) s, exec_pc_and_frame (.sneImm x nn) s,
      exec_pc_and_frame (.seReg x y) s, exec_pc_and_frame (.sneReg x y) s⟩⟩

/-! ### Return and call -/

theorem exec_ret_empty {s : State} (h : s.sp = 0) : exec .ret s = .next (s.raiseFatal .stackUnderflow) := by
  simp only [exec, execRet, State.pop_empty h]

theorem exec_ret_ok {s : State} (h : s.sp ≠ 0) :
    exec .ret s = .next { s with pc := s.stack.getD (s.sp - 1) 0, sp := s.sp - 1 } := by
  simp only [exec, execRet, State.pop_ok h, State.setPc]

theorem exec_call_full {s : State} (nnn : Addr) (h : s.sp = s.cfg.stackDepth) :
    exec (.call nnn) s = .next (s.raiseFatal .stackOverflow) := by
  simp only [exec, execCall, State.push_full _ h]

theorem exec_call_ok {s : State} (nnn : Addr) (h : s.sp ≠ s.cfg.stackDepth) :
    exec (.call nnn) s = .next { s with pc := nnn, sp := s.sp + 1, stack := s.stack.set s.sp s.pc } := by
  simp only [exec, execCall, State.push_ok _ h, State.setPc]

theorem writesOf_ret_ok {s : State} (h : s.sp ≠ 0) : writesOf .ret s = { pc := true, sp := true } := if_neg h

theorem writesOf_call_ok {s : State} (nnn : Addr) (h : s.sp ≠ s.cfg.stackDepth) :
    writesOf (.call nnn) s = { pc := true, sp := true, stack := true } := if_neg h

/-- Settles O27: the two ends of RET. -/
theorem returnPopsOrUnderflows : Obligations.ReturnPopsOrUnderflows := by
  refine fun s => ⟨fun h => ?_, fun h => ?_⟩
  · have hx := exec_ret_ok h
    exact ⟨_, hx, rfl, rfl, writesOf_ret_ok h ▸ frame_of_exec hx⟩
  · exact ⟨_, exec_ret_empty h, rfl, rfl, .raiseFatal rfl _⟩

/-- Settles O28: the two ends of CALL; a push writes the entry at `SP`, which lies inside the stack, and no
other one. -/
theorem callPushesOrOverflows : Obligations.CallPushesOrOverflows := by
  refine fun s nnn hlen => ⟨fun h => ?_, fun h => ?_⟩
  · have hx := exec_call_ok nnn h.ne
    exact ⟨_, hx, rfl, rfl, List.getElem?_set_self (hlen ▸ h), fun _ hj => List.getElem?_set_ne hj.symm,
      writesOf_call_ok nnn h.ne ▸ frame_of_exec hx⟩
  · exact ⟨_, exec_call_full nnn h, rfl, rfl, .raiseFatal rfl _⟩

/-! ### Nested calls -/

/-- The occupied stack entries (R27) are the return addresses `as`, oldest first. -/
structure State.Holds (s : State) (as : List Addr) : Prop where
  sp : s.sp = as.length
  entries : as <+: s.stack

theorem State.holds_take {s : State} (h : s.sp ≤ s.stack.length) : s.Holds (s.stack.take s.sp) where
  sp := (List.length_take_of_le h).symm
  entries := List.take_prefix _ _

/-- A call with room left pushes its post-fetch `PC` on top of the addresses held (R103). -/
theorem State.Holds.call_pushes {s : State} {as : List Addr} (h : s.Holds as) (hlen : s.stack.length = s.cfg.stackDepth)
    (hroom : as.length < s.cfg.stackDepth) (nnn : Addr) :
    ∃ t, exec (.call nnn) s = .next t ∧ t.Holds (as ++ [s.pc]) ∧ t.stack.length = t.cfg.stackDepth := by
  have hne : s.sp ≠ s.cfg.stackDepth := h.sp ▸ hroom.ne
  refine ⟨_, exec_call_ok nnn hne, ⟨by simp [h.sp], ?_⟩, by simp [hlen]⟩
  obtain ⟨rest, hrest⟩ := h.entries
  cases rest with
  | nil =>
    rw [← hrest, List.append_nil] at hlen
    exact absurd hlen hroom.ne
  | cons b rest => exact ⟨rest, by simp [← hrest, h.sp]⟩

/-- A return goes to the newest address held and leaves the others (R101). -/
theorem State.Holds.ret_pops {s : State} {as : List Addr} {a : Addr} (h : s.Holds (as ++ [a])) :
    ∃ t, exec .ret s = .next t ∧ t.pc = a ∧ t.Holds as := by
  have hsp : s.sp = as.length + 1 := by simpa using h.sp
  obtain ⟨rest, hrest⟩ := h.entries
  refine ⟨_, exec_ret_ok (by omega), ?_, ?_, (as.prefix_append [a]).trans h.entries⟩
  · simp [hsp, ← hrest]
  · simp [hsp]

/-- Calls that fit push their post-fetch addresses in order. -/
theorem State.Holds.callAll_pushes (cs : List (Addr × Addr)) {s : State} {as : List Addr} (h : s.Holds as)
    (hlen : s.stack.length = s.cfg.stackDepth) (hroom : as.length + cs.length ≤ s.cfg.stackDepth) :
    ∃ t, callAll cs s = .next t ∧ t.Holds (as ++ cs.map Prod.fst) := by
  induction cs generalizing s as with
  | nil => exact ⟨s, rfl, by simpa using h⟩
  | cons c cs ih =>
    obtain ⟨a, nnn⟩ := c
    rw [List.length_cons] at hroom
    have ha : (s.setPc a).Holds as := ⟨h.sp, h.entries⟩
    have hlt : as.length < s.cfg.stackDepth := by omega
    obtain ⟨u, hu, hheld, hulen⟩ := ha.call_pushes hlen hlt nnn
    have hcfg : u.cfg = s.cfg := (frame_of_exec hu).cfg
    have huroom : (as ++ [a]).length + cs.length ≤ u.cfg.stackDepth := by
      rw [hcfg, List.length_append, List.length_singleton]
      omega
    obtain ⟨t, ht, hall⟩ := ih hheld hulen huroom
    exact ⟨t, by simpa only [callAll, hu] using ht, by simpa using hall⟩

/-- As many returns as there are addresses in `bs` undo them, newest first. -/
theorem State.Holds.returnAll_pops (bs : List Addr) {s : State} {as : List Addr} (h : s.Holds (as ++ bs)) :
    ∃ u, returnAll bs.length s = some (bs.reverse, u) ∧ u.Holds as := by
  induction bs using List.reverseRecOn generalizing s with
  | nil => exact ⟨s, rfl, by simpa using h⟩
  | append_singleton bs b ih =>
    rw [← List.append_assoc] at h
    obtain ⟨t, ht, hpc, hheld⟩ := h.ret_pops
    obtain ⟨u, hu, hleft⟩ := ih hheld
    exact ⟨u, by simp [returnAll, ht, hu, hpc], hleft⟩

/-- Settles O29: the calls push their post-fetch addresses on the entries already occupied, and the returns
take exactly these off again, newest first. -/
theorem nestedCallsReturnInReverse : Obligations.NestedCallsReturnInReverse := by
  intro cs s hlen hfit
  have hs : s.Holds (s.stack.take s.sp) := State.holds_take (by omega)
  obtain ⟨t, ht, hall⟩ := hs.callAll_pushes cs hlen (hs.sp ▸ hfit)
  obtain ⟨u, hu, hleft⟩ := hall.returnAll_pops
  rw [List.length_map] at hu
  have hsp : t.sp = s.sp + cs.length := by
    rw [hall.sp, List.length_append, List.length_map, ← hs.sp]
  exact ⟨t, ht, hsp, u, hu, hleft.sp.trans hs.sp.symm⟩

end Sys2Proof.Machine
end

section
/-! SUPPORT. Load, arithmetic, logic, shift and random (R110 to R124): what an instruction leaves that writes one
register, with or without a flag; the flag bytes as numbers; and each instruction by the value it writes. -/

namespace Sys2Proof.Machine

/-! ### One register written, with or without a flag -/

/-- An instruction whose meaning is one register write leaves its result there and everything else alone. -/
theorem exec_of_setV {i : Instr} {s : State} {x : Reg} {b : Byte} (h : exec i s = .next (s.setV x b)) :
    ∃ t, exec i s = .next t ∧ t.getV x = b ∧ Frame { regs := [x] } s t :=
  ⟨_, h, s.getV_setV_self x b, .setV (List.mem_singleton_self x) b⟩

/-- An instruction whose meaning is a flagged write leaves its result in the destination, its flag in VF when
that is another register, and everything else alone (R110). -/
theorem exec_of_writeFlagged {i : Instr} {s : State} {x : Reg} {f : Bool} {b : Byte}
    (h : exec i s = .next (s.writeFlagged x f b)) :
    ∃ t, exec i s = .next t ∧ t.getV x = b ∧ (x ≠ VF → t.getV VF = flagByte f) ∧ Frame { regs := [x, VF] } s t := by
  refine ⟨_, h, ?_, fun hx => ?_, .writeFlagged (.head _) (.tail _ (.head _)) f b⟩
  · rw [s.getV_writeFlagged, if_pos rfl]
  · rw [s.getV_writeFlagged, if_neg hx.symm, if_pos rfl]

/-! ### Flag bytes (R111) -/

theorem flagByte_decide (p : Prop) [Decidable p] : flagByte (decide p) = if p then 1 else 0 := by
  simp only [flagByte, decide_eq_true_eq]

theorem flagByte_toNat (f : Bool) : (flagByte f).toNat = f.toNat := by
  cases f <;> rfl

/-- The bit a right shift moves out is the remainder of the halving (R120). -/
theorem flagByte_shiftedOutRight (a : Byte) : (flagByte (shiftedOutRight a)).toNat = a.toNat % 2 := by
  rw [flagByte_toNat, shiftedOutRight, BitVec.getLsbD, Nat.toNat_testBit, pow_zero, Nat.div_one]

/-- The bit a left shift moves out is the top bit (R123). -/
theorem flagByte_shiftedOutLeft (a : Byte) : (flagByte (shiftedOutLeft a)).toNat = a.toNat / 128 := by
  have htop : a.toNat / 128 < 2 := by omega
  rw [flagByte_toNat, shiftedOutLeft, BitVec.getLsbD, Nat.toNat_testBit]
  exact Nat.mod_eq_of_lt htop

/-! ### Results as numbers (R110) -/

theorem byte_sub_toNat (a b : Byte) : (a - b).toNat = (a.toNat + 256 - b.toNat) % 256 := by
  rw [BitVec.toNat_sub]
  omega

theorem byte_ushiftRight_one_toNat (a : Byte) : (a >>> 1).toNat = a.toNat / 2 := by
  rw [BitVec.toNat_ushiftRight, Nat.shiftRight_eq_div_pow, pow_one]

theorem byte_shiftLeft_one_toNat (a : Byte) : (a <<< 1).toNat = 2 * a.toNat % 256 := by
  rw [BitVec.toNat_shiftLeft, Nat.shiftLeft_eq, pow_one, Nat.mul_comm]

/-! ### The instructions -/

/-- Settles O33: each is one register write, of the immediate and of the wrapping sum. -/
theorem immediateLoadAndAdd : Obligations.ImmediateLoadAndAdd := by
  refine fun s x nn => ⟨exec_of_setV rfl, ?_⟩
  obtain ⟨t, ht, hx, hf⟩ := exec_of_setV (i := .addImm x nn) (s := s) rfl
  exact ⟨t, ht, hx ▸ BitVec.toNat_add .., hf⟩

/-- Settles O34: each is one register write, of Vy or of the bitwise operation. -/
theorem moveAndLogicChangeNoFlag : Obligations.MoveAndLogicChangeNoFlag := by
  refine fun s x y => ⟨exec_of_setV rfl, ?_, ?_, ?_⟩
  · obtain ⟨t, ht, hx, hf⟩ := exec_of_setV (i := .or x y) (s := s) rfl
    exact ⟨t, ht, fun _ => hx ▸ BitVec.getLsbD_or, hf⟩
  · obtain ⟨t, ht, hx, hf⟩ := exec_of_setV (i := .and x y) (s := s) rfl
    exact ⟨t, ht, fun _ => hx ▸ BitVec.getLsbD_and, hf⟩
  · obtain ⟨t, ht, hx, hf⟩ := exec_of_setV (i := .xor x y) (s := s) rfl
    exact ⟨t, ht, fun _ => hx ▸ BitVec.getLsbD_xor, hf⟩

/-- Settles O35: a flagged write of the wrapping sum and its carry. -/
theorem addWritesSumAndCarry : Obligations.AddWritesSumAndCarry := by
  intro s x y
  obtain ⟨t, ht, hx, hvf, hf⟩ := exec_of_writeFlagged (i := .addReg x y) (s := s) rfl
  exact ⟨t, ht, hx ▸ BitVec.toNat_add .., fun h => (hvf h).trans (flagByte_decide _), hf⟩

/-- Settles O36: flagged writes of the wrapping difference and its strict comparison, the minuend being Vx or
Vy. -/
theorem subtractionsWriteNoBorrow : Obligations.SubtractionsWriteNoBorrow := by
  refine fun s x y => ⟨?_, ?_⟩
  · obtain ⟨t, ht, hx, hvf, hf⟩ := exec_of_writeFlagged (i := .sub x y) (s := s) rfl
    exact ⟨t, ht, hx ▸ byte_sub_toNat .., fun h => (hvf h).trans (flagByte_decide _), hf⟩
  · obtain ⟨t, ht, hx, hvf, hf⟩ := exec_of_writeFlagged (i := .subn x y) (s := s) rfl
    exact ⟨t, ht, hx ▸ byte_sub_toNat .., fun h => (hvf h).trans (flagByte_decide _), hf⟩

/-- Settles O37: flagged writes of Vx shifted by one and of the bit that leaves it; Vy is not read. -/
theorem shiftsMoveOneBitInPlace : Obligations.ShiftsMoveOneBitInPlace := by
  refine fun s x y => ⟨?_, ?_⟩
  · obtain ⟨t, ht, hx, hvf, hf⟩ := exec_of_writeFlagged (i := .shr x y) (s := s) rfl
    exact ⟨t, ht, hx ▸ byte_ushiftRight_one_toNat _, fun h => hvf h ▸ flagByte_shiftedOutRight _, hf⟩
  · obtain ⟨t, ht, hx, hvf, hf⟩ := exec_of_writeFlagged (i := .shl x y) (s := s) rfl
    exact ⟨t, ht, hx ▸ byte_shiftLeft_one_toNat _, fun h => hvf h ▸ flagByte_shiftedOutLeft _, hf⟩

/-- Settles O38: one draw, then one register write; a bit outside the mask is 0 whatever was drawn. -/
theorem randomByteIsMasked : Obligations.RandomByteIsMasked := by
  intro s x nn
  have hx : (s.draw.2.setV x (s.draw.1 &&& nn)).getV x = Config.rndByte s.draws &&& nn :=
    s.draw.2.getV_setV_self x _
  refine ⟨_, rfl, hx, ?_, rfl, frame_of_exec (i := .rnd x nn) rfl⟩
  rw [hx, BitVec.and_assoc, BitVec.and_not_self]
  exact BitVec.and_zero

end Sys2Proof.Machine
end

section
/-! SUPPORT. Index register and memory (R130 to R136): the sums written to `I`, the decimal digits as LD B stores
them, and the register dump and load, which meet at the same addresses while `I` stays. -/

namespace Sys2Proof.Machine

/-! ### Dump and load -/

/-- Settles O42: the bytes by what a dump stored, and the frame of the instruction. -/
theorem dumpStoresTheRegisters : Obligations.DumpStoresTheRegisters := by
  intro s x
  obtain ⟨t, ht, hf⟩ := exec_frame (.dump x) s
  exact ⟨t, ht, fun _ => execDump_memRead ht, hf⟩

/-- What a register load put into V0..VX is what lay at `I + k` (R136). -/
theorem execLoad_getV {x : Reg} {s t : State} (h : exec (.load x) s = .next t) {k : Reg} (hk : k ≤ x) :
    t.getV k = s.memRead (s.effAddr k.val) := by
  cases h
  rw [State.foldl_loadReg_getV, if_pos (mem_regsUpTo.2 hk)]

/-- Settles O43: the registers by what a load reads, and the frame of the instruction. -/
theorem loadFillsTheRegisters : Obligations.LoadFillsTheRegisters := by
  intro s x
  obtain ⟨t, ht, hf⟩ := exec_frame (.load x) s
  exact ⟨t, ht, fun _ => execLoad_getV ht, hf⟩

/-- An element lies where it lay, as long as `I` is not written (R130). -/
theorem Frame.effAddr_eq {w : Writes} {s t : State} (h : Frame w s t) (hw : w.i = false) (k : Nat) :
    t.effAddr k = s.effAddr k := by
  rw [State.effAddr, h.i hw, State.effAddr]

/-- Settles O44: the dump leaves `I` alone, so the load reads each register from the address the dump stored it
to; neither memory nor `I` depends on the registers in between. -/
theorem dumpThenLoadRestoresRegisters : Obligations.DumpThenLoadRestoresRegisters := by
  intro s t x regs hdump
  obtain ⟨u, hload, -⟩ := exec_frame (.load x) { t with v := regs }
  refine ⟨u, hload, fun k hk => ?_⟩
  calc u.getV k
    _ = t.memRead (t.effAddr k.val) := execLoad_getV hload hk
    _ = t.memRead (s.effAddr k.val) := by rw [(frame_of_exec hdump).effAddr_eq rfl]
    _ = s.getV k := execDump_memRead hdump hk

/-! ### The sums written to `I` -/

theorem glyphAddr_toNat (b : Byte) : (glyphAddr b).toNat = (0x050 + 5 * b.toNat) % 4096 := BitVec.toNat_ofNat _ 12

/-- An instruction whose meaning is a write of `I` leaves its result there and everything else alone (R130). -/
theorem exec_of_setI {i : Instr} {s : State} {a : Addr} (h : exec i s = .next (s.setI a)) :
    ∃ t, exec i s = .next t ∧ t.i = a ∧ Frame { i := true } s t :=
  ⟨_, h, rfl, .setI rfl a⟩

/-- Settles O40: each is one write of `I`, of the immediate, of the sum with Vx and of the glyph's address. -/
theorem indexInstructionsWriteI : Obligations.IndexInstructionsWriteI := by
  refine fun s x nnn => ⟨exec_of_setI rfl, ?_, ?_⟩
  · obtain ⟨t, ht, hi, hf⟩ := exec_of_setI (i := .addI x) (s := s) rfl
    exact ⟨t, ht, hi ▸ addToAddr_toNat .., hf⟩
  · obtain ⟨t, ht, hi, hf⟩ := exec_of_setI (i := .ldF x) (s := s) rfl
    exact ⟨t, ht, hi ▸ glyphAddr_toNat _, hf⟩

/-! ### Decimal digits (R134) -/

theorem byte_ofNat_toNat {n : Nat} (h : n < 256) : (BitVec.ofNat 8 n).toNat = n :=
  (BitVec.toNat_ofNat n 8).trans (Nat.mod_eq_of_lt h)

theorem hundreds_toNat (b : Byte) : (hundreds b).toNat = b.toNat / 100 :=
  byte_ofNat_toNat (by omega)

theorem tens_toNat (b : Byte) : (tens b).toNat = b.toNat / 10 % 10 :=
  byte_ofNat_toNat (by omega)

theorem ones_toNat (b : Byte) : (ones b).toNat = b.toNat % 10 :=
  byte_ofNat_toNat (by omega)

/-- Memory after the three digits are stored. -/
theorem State.storeDigits_memRead (s : State) (b : Byte) (a : Nat) :
    (s.storeDigits b).memRead a =
      if a % 4096 = s.effAddr 2 then ones b
      else if a % 4096 = s.effAddr 1 then tens b
      else if a % 4096 = s.effAddr 0 then hundreds b else s.memRead a := by
  simp only [State.storeDigits, State.memRead_memWrite, State.effAddr_mod]

theorem State.effAddr_ne (s : State) {j k : Nat} (hj : j < 4096) (hk : k < 4096) (h : j ≠ k) :
    s.effAddr j ≠ s.effAddr k :=
  fun he => h (s.effAddr_inj hj hk he)

/-- Settles O41: the three addresses are distinct, so each digit is read back at its own. -/
theorem decimalDigitsAreStored : Obligations.DecimalDigitsAreStored := by
  intro s x
  have h01 : s.effAddr 0 ≠ s.effAddr 1 := s.effAddr_ne (by decide) (by decide) (by decide)
  have h02 : s.effAddr 0 ≠ s.effAddr 2 := s.effAddr_ne (by decide) (by decide) (by decide)
  have h12 : s.effAddr 1 ≠ s.effAddr 2 := s.effAddr_ne (by decide) (by decide) (by decide)
  refine ⟨s.storeDigits (s.getV x), rfl, ?_, ?_, ?_, .storeDigits (List.Subset.refl _) _⟩
  · rw [State.storeDigits_memRead, State.effAddr_mod, if_neg h02, if_neg h01, if_pos rfl, hundreds_toNat]
  · rw [State.storeDigits_memRead, State.effAddr_mod, if_neg h12, if_pos rfl, tens_toNat]
  · rw [State.storeDigits_memRead, State.effAddr_mod, if_pos rfl, ones_toNat]

end Sys2Proof.Machine
end

section
/-! SUPPORT. Display (R140 to R144): a DRW is an XOR of the raster with the sprite's bits. `XorDraws` says so of
one set bit; a loop of turns with disjoint bits keeps it, so a row and a sprite have it too. -/

namespace Sys2Proof.Machine

/-! ### XOR of a set of bits onto the raster -/

/-- Some bit of `m` falls on an ON cell of the grid (R144 (c)). -/
def State.Collides (s : State) (m : Nat → Nat → Bool) : Prop :=
  ∃ p q, p < 64 ∧ q < 32 ∧ s.pixGet p q = true ∧ m p q = true

/-- `t` is `s` with the cells under `m` inverted, VF set if one of them was ON, and all else as it was. -/
structure XorDraws (m : Nat → Nat → Bool) (s t : State) : Prop where
  pixGet : ∀ p q, p < 64 → q < 32 → t.pixGet p q = (s.pixGet p q ^^ m p q)
  collision : s.Collides m → t.getV VF = 1
  noCollision : ¬s.Collides m → t.getV VF = s.getV VF
  frame : Frame { regs := [VF], fb := true } s t

theorem State.not_collides_none (s : State) : ¬s.Collides fun _ _ => false :=
  fun ⟨_, _, _, _, _, hm⟩ => Bool.false_ne_true hm

theorem State.collides_or (s : State) (m m' : Nat → Nat → Bool) :
    (s.Collides fun p q => m p q || m' p q) ↔ s.Collides m ∨ s.Collides m' := by
  simp only [State.Collides, Bool.or_eq_true, and_or_left, exists_or]

theorem XorDraws.refl (s : State) : XorDraws (fun _ _ => false) s s where
  pixGet _ _ _ _ := (Bool.xor_false _).symm
  collision h := absurd h s.not_collides_none
  noCollision _ := rfl
  frame := .refl _ s

section
variable {m m' : Nat → Nat → Bool} {s t u : State}

theorem XorDraws.vf_zero_or_one (h : XorDraws m s t) (h0 : s.getV VF = 0) : t.getV VF = 0 ∨ t.getV VF = 1 := by
  by_cases hc : s.Collides m
  · exact .inr (h.collision hc)
  · exact .inl ((h.noCollision hc).trans h0)

/-- With VF clear before, VF tells a collision. -/
theorem XorDraws.vf_one_iff (h : XorDraws m s t) (h0 : s.getV VF = 0) : t.getV VF = 1 ↔ s.Collides m := by
  refine ⟨fun h1 => ?_, h.collision⟩
  by_contra hc
  exact absurd (h1.symm.trans ((h.noCollision hc).trans h0)) (by decide)

/-- Bits outside `m` collide after `m` is drawn exactly when they did before. -/
theorem XorDraws.collides_iff (h : XorDraws m s t) (hd : ∀ p q, m p q = true → m' p q = false) :
    t.Collides m' ↔ s.Collides m' := by
  refine exists₂_congr fun p q => and_congr_right fun hp => and_congr_right fun hq => and_congr_left fun hm' => ?_
  have hm : m p q = false := Bool.eq_false_iff.2 fun hm => Bool.false_ne_true ((hd p q hm).symm.trans hm')
  rw [h.pixGet p q hp hq, hm, Bool.xor_false]

theorem XorDraws.trans (h : XorDraws m s t) (h' : XorDraws m' t u) (hd : ∀ p q, m p q = true → m' p q = false) :
    XorDraws (fun p q => m p q || m' p q) s u where
  pixGet p q hp hq := by
    have hor : (m p q || m' p q) = (m p q ^^ m' p q) := by
      cases hm : m p q
      · rw [Bool.false_or, Bool.false_xor]
      · rw [hd p q hm, Bool.or_false, Bool.xor_false]
    rw [h'.pixGet p q hp hq, h.pixGet p q hp hq, hor, Bool.xor_assoc]
  collision hc := by
    by_cases hc' : t.Collides m'
    · exact h'.collision hc'
    · have hs : s.Collides m := ((s.collides_or m m').1 hc).resolve_right fun hs => hc' ((h.collides_iff hd).2 hs)
      exact (h'.noCollision hc').trans (h.collision hs)
  noCollision hc := by
    obtain ⟨hs, hs'⟩ := not_or.1 fun ho => hc ((s.collides_or m m').2 ho)
    exact (h'.noCollision fun ht => hs' ((h.collides_iff hd).1 ht)).trans (h.noCollision hs)
  frame := h.frame.trans h'.frame

/-- A loop whose turns draw pairwise disjoint bits draws them all; a turn may use that the state it begins with
differs from the loop's first one in VF and the raster only. -/
theorem XorDraws.foldl {f : State → Nat → State} {d : Nat → Nat → Nat → Bool} {l : List Nat} (hl : l.Nodup)
    (hd : ∀ j k, j ≠ k → ∀ p q, d j p q = true → d k p q = false)
    (hf : ∀ t k, Frame { regs := [VF], fb := true } s t → XorDraws (d k) t (f t k)) :
    XorDraws (fun p q => l.any fun k => d k p q) s (l.foldl f s) := by
  induction l generalizing s with
  | nil => exact .refl s
  | cons k l ih =>
    obtain ⟨hk, hl⟩ := List.nodup_cons.1 hl
    have hturn : XorDraws (d k) s (f s k) := hf s k (.refl _ s)
    refine hturn.trans (ih hl fun t j ht => hf t j (hturn.frame.trans ht)) fun p q hp => ?_
    exact List.any_eq_false.2 fun j hj => Bool.eq_false_iff.1 (hd k j (fun e => hk (e ▸ hj)) p q hp)

end

/-! ### One bit, one row, the sprite (R143) -/

theorem State.drawBit_xorDraws (s : State) (x y : Nat) :
    XorDraws (fun p q => decide (p = x ∧ q = y)) s (s.drawBit x y) where
  pixGet p q hp hq := by
    rw [s.drawBit_pixGet]
    by_cases h : p = x ∧ q = y
    · obtain ⟨rfl, rfl⟩ := h
      simp [hp, hq]
    · rw [if_neg fun h' => h ⟨h'.1, h'.2.1⟩, decide_eq_false h, Bool.xor_false]
  collision := by
    rintro ⟨p, q, -, -, hon, hm⟩
    obtain ⟨rfl, rfl⟩ := of_decide_eq_true hm
    rw [s.drawBit_getV, if_pos ⟨rfl, hon⟩]
  noCollision hc := by
    refine (s.drawBit_getV x y VF).trans (if_neg fun ⟨_, hon⟩ => hc ?_)
    have hgrid : x < 64 ∧ y < 32 := by
      by_contra hoff
      exact Bool.false_ne_true ((s.pixGet_off hoff).symm.trans hon)
    exact ⟨x, y, hgrid.1, hgrid.2, hon, decide_eq_true ⟨rfl, rfl⟩⟩
  frame := .drawBit (List.mem_singleton_self VF) rfl x y

/-- Whether a sprite row `b` at column `x`, row `y` has a set bit for the cell at column `p`, row `q`. -/
def rowBit (x y : Nat) (b : Byte) (p q : Nat) : Bool :=
  decide (x ≤ p ∧ p < x + 8 ∧ q = y) && b.getLsbD (7 - (p - x))

/-- A row's bits by the column that draws them. -/
theorem rowBit_eq_any (x y : Nat) (b : Byte) (p q : Nat) :
    rowBit x y b p q = (List.range 8).any fun col => b.getLsbD (7 - col) && decide (p = x + col ∧ q = y) := by
  rw [Bool.eq_iff_iff]
  simp only [rowBit, List.any_eq_true, List.mem_range, Bool.and_eq_true, decide_eq_true_eq]
  constructor
  · rintro ⟨⟨hx, hx8, hq⟩, hb⟩
    exact ⟨p - x, by omega, hb, by omega, hq⟩
  · rintro ⟨col, hcol, hb, rfl, rfl⟩
    exact ⟨by omega, by rwa [Nat.add_sub_cancel_left]⟩

/-- A sprite's bits by the row that draws them. -/
theorem State.spriteBit_eq_any (s : State) (x0 y0 n p q : Nat) :
    s.spriteBit x0 y0 n p q =
      (List.range n).any fun row => rowBit x0 (y0 + row) (s.memRead (s.effAddr row)) p q := by
  rw [Bool.eq_iff_iff]
  simp only [State.spriteBit, rowBit, List.any_eq_true, List.mem_range, Bool.and_eq_true, decide_eq_true_eq]
  constructor
  · rintro ⟨⟨hx, hx8, hy, hyn⟩, hb⟩
    exact ⟨q - y0, by omega, ⟨hx, hx8, by omega⟩, hb⟩
  · rintro ⟨row, hrow, ⟨hx, hx8, rfl⟩, hb⟩
    exact ⟨by omega, by rwa [Nat.add_sub_cancel_left]⟩

/-- The columns of a row are distinct, so no cell is visited twice (R57). -/
theorem State.drawRow_xorDraws (s : State) (x y : Nat) (b : Byte) : XorDraws (rowBit x y b) s (s.drawRow x y b) := by
  rw [show rowBit x y b = _ from funext₂ (rowBit_eq_any x y b)]
  refine .foldl List.nodup_range (fun j k hjk p q hj => ?_) fun t col _ => ?_
  · obtain ⟨hp, -⟩ := of_decide_eq_true (Bool.and_eq_true_iff.1 hj).2
    exact Bool.and_eq_false_imp.2 fun _ => decide_eq_false fun hk => hjk (by omega)
  · cases b.getLsbD (7 - col)
    · exact .refl t
    · exact t.drawBit_xorDraws (x + col) y

/-- The rows of a sprite are distinct, and drawing changes no sprite byte (R143). -/
theorem State.drawSprite_xorDraws (s : State) (x y n : Nat) :
    XorDraws (s.spriteBit x y n) s (s.drawSprite x y n) := by
  rw [show s.spriteBit x y n = _ from funext₂ (s.spriteBit_eq_any x y n)]
  refine .foldl List.nodup_range (fun j k hjk p q hj => ?_) fun t row ht => ?_
  · obtain ⟨-, -, hq⟩ := of_decide_eq_true (Bool.and_eq_true_iff.1 hj).1
    exact Bool.and_eq_false_imp.2 fun hk => absurd (of_decide_eq_true hk).2.2 (by omega)
  · have hbyte : t.memRead (t.effAddr row) = s.memRead (s.effAddr row) := by
      rw [ht.effAddr_eq rfl, ht.mem _ List.not_mem_nil]
    exact hbyte ▸ t.drawRow_xorDraws x (y + row) _

/-! ### The instructions -/

/-- Settles O50: VF is cleared and the sprite drawn, and clearing VF changes neither the raster nor the sprite. -/
theorem drawXorsTheSprite : Obligations.DrawXorsTheSprite := by
  intro s x y n
  have hdraw := (s.setV VF 0).drawSprite_xorDraws (originX (s.getV x)) (originY (s.getV y)) n.toNat
  have h0 : (s.setV VF 0).getV VF = 0 := s.getV_setV_self VF 0
  exact ⟨_, rfl, hdraw.pixGet, hdraw.vf_zero_or_one h0, hdraw.vf_one_iff h0, frame_of_exec (i := .drw x y n) rfl⟩

/-- A sprite keeps its bits while `I` and memory stay. -/
theorem Frame.spriteBit_eq {w : Writes} {s t : State} (h : Frame w s t) (hi : w.i = false) (hm : w.mem = [])
    (x0 y0 n p q : Nat) : t.spriteBit x0 y0 n p q = s.spriteBit x0 y0 n p q := by
  rw [State.spriteBit, h.effAddr_eq hi, h.mem _ (hm ▸ List.not_mem_nil), State.spriteBit]

/-- Settles O51: the second DRW has the bits of the first, which cancel on the grid; under a set bit the first
left exactly the OFF cells ON. -/
theorem drawTwiceRestoresTheRaster : Obligations.DrawTwiceRestoresTheRaster := by
  intro s t x y n hx hy ht
  obtain ⟨t', ht', hfirst, -, -, hframe⟩ := drawXorsTheSprite s x y n
  cases ht.symm.trans ht'
  obtain ⟨u, hu, hsecond, -, hvf, -⟩ := drawXorsTheSprite t x y n
  have hvx : t.getV x = s.getV x := hframe.regs x (List.mem_singleton.not.2 hx)
  have hvy : t.getV y = s.getV y := hframe.regs y (List.mem_singleton.not.2 hy)
  simp only [hvx, hvy, hframe.spriteBit_eq rfl rfl] at hsecond hvf
  refine ⟨u, hu, fun p q => ?_, hvf.trans ?_⟩
  · by_cases hgrid : p < 64 ∧ q < 32
    · rw [hsecond p q hgrid.1 hgrid.2, hfirst p q hgrid.1 hgrid.2, Bool.xor_assoc, Bool.xor_self, Bool.xor_false]
    · rw [u.pixGet_off hgrid, s.pixGet_off hgrid]
  · refine exists₂_congr fun p q => and_congr_right fun hp => and_congr_right fun hq => and_congr_left fun hbit => ?_
    rw [hfirst p q hp hq, hbit, Bool.xor_true, Bool.not_eq_true']

/-- Settles O48: each clause is a law of the primitive, or its branch off the grid. -/
theorem rasterPrimitives : Obligations.RasterPrimitives := by
  intro s x y p q b
  refine ⟨s.pixGet_pixClear p q, fun hoff => ⟨s.pixGet_off hoff, dif_neg hoff⟩, s.pixGet_pixSet x y p q b, ?_⟩
  unfold State.pixSet
  split <;> rfl

/-- Settles O49: CLS is one clear of the raster. -/
theorem clearTurnsEveryPixelOff : Obligations.ClearTurnsEveryPixelOff :=
  fun s => ⟨s.pixClear, rfl, s.pixGet_pixClear, .pixClear rfl⟩

end Sys2Proof.Machine
end

section
/-! SUPPORT. Keypad and timers (R150 to R156, R178): the key wait, by the two ends of the scan; the key skips, by
their rows in the address table; the timer moves, by the one field each writes. -/

namespace Sys2Proof.Machine

/-! ### The key wait (R152) -/

/-- The key found is the lowest one pressed. -/
theorem State.firstKey_some {s : State} {k : Key} :
    s.firstKey = some k ↔ s.getKey k = true ∧ ∀ j, j < k → s.getKey j = false := by
  rw [State.firstKey, ← Fin.find?_eq_find?_finRange]
  exact Fin.find?_eq_some_iff

theorem exec_ldVxK_some {s : State} {k : Key} (x : Reg) (h : s.firstKey = some k) :
    exec (.ldVxK x) s = .next (s.setV x (BitVec.ofNat 8 k.val)) := by
  change execLdVxK x s = _
  rw [execLdVxK, h]

theorem exec_ldVxK_none {s : State} (x : Reg) (h : s.firstKey = none) : exec (.ldVxK x) s = .next s.rewindPc := by
  change execLdVxK x s = _
  rw [execLdVxK, h]

/-- Settles O52: the scan finds the lowest pressed key, which is written to Vx, or none, and `PC` is rewound. -/
theorem keyWaitTakesLowestKeyOrRewinds : Obligations.KeyWaitTakesLowestKeyOrRewinds := by
  refine fun s x => ⟨fun k hk hlow => ?_, fun hnone => ?_⟩
  · have hfirst : s.firstKey = some k := State.firstKey_some.2 ⟨hk, hlow⟩
    obtain ⟨t, ht, hv, hf⟩ := exec_of_setV (exec_ldVxK_some x hfirst)
    have hbyte : k.val < 256 := by omega
    exact ⟨t, ht, hv ▸ byte_ofNat_toNat hbyte, hf⟩
  · have hfirst : s.firstKey = none := State.firstKey_none.2 hnone
    exact ⟨s.rewindPc, exec_ldVxK_none x hfirst, s.rewindPc_pc, .setPc rfl _⟩

/-! ### The key skips (R150, R151) -/

/-- The key of a register value is the one its low four bits name (R156). -/
theorem keyIndex_eq {b : Byte} {k : Key} (h : k.val = b.toNat % 16) : keyIndex b = k := Fin.ext h.symm

/-- Settles O31: each skip by its row in the address table and its frame, at the key that Vx names. -/
theorem keySkipsReadTheLatch : Obligations.KeySkipsReadTheLatch := by
  intro s x k hk
  rw [← keyIndex_eq hk]
  exact ⟨exec_pc_and_frame (.skp x) s, exec_pc_and_frame (.sknp x) s⟩

/-! ### The timer moves (R153 to R155) -/

/-- The tone sounds exactly while the sound timer is not zero (R178). -/
theorem State.tone_iff (s : State) : s.tone = true ↔ s.st ≠ 0 := by
  rw [State.tone, decide_eq_true_eq, Nat.pos_iff_ne_zero]
  exact BitVec.toNat_ne_iff_ne (y := 0)

/-- Settles O53: one write of Vx, of DT and of ST; the tone is that of the new ST. -/
theorem timerMovesCopyTheTimers : Obligations.TimerMovesCopyTheTimers :=
  fun s x => ⟨exec_of_setV rfl, ⟨s.setDt (s.getV x), rfl, rfl, .setDt rfl _⟩,
    ⟨s.setSt (s.getV x), rfl, rfl, (s.setSt (s.getV x)).tone_iff, .setSt rfl _⟩⟩

end Sys2Proof.Machine
end

section
/-! SUPPORT. What one event does (R162 to R177): a tick that executes an instruction, its fatal end, the events of
a halted core, the key edges and `Frame`. -/

namespace Sys2Proof.Machine

/-! ### A tick that executes an instruction (R170) -/

section
variable {s u t : State} {i : Instr}

theorem step_instr (hc : s.cfg.wf = true) (hu : s.atTick = some u) (hh : u.halt = false)
    (hd : decode u.fetch = .instr i) (hx : exec i u.advancePc = .next t) : step s = .next t.endTick := by
  rw [step_atTick hc hu, tick_instr hh hd, hx]
  rfl

/-- A fatal condition ends the tick as it was raised: no watchdog step follows (R164, R179). -/
theorem step_instr_fatal {c : Cause} (hc : s.cfg.wf = true) (hu : s.atTick = some u) (hh : u.halt = false)
    (hd : decode u.fetch = .instr i) (hx : exec i u.advancePc = .next (u.advancePc.raiseFatal c)) :
    step s = .next (u.advancePc.raiseFatal c) := by
  rw [step_instr hc hu hh hd hx, State.endTick_halted rfl]

end

/-- Settles O8: the instruction answers one next state, which ends the tick. -/
theorem stepRunsTheDecodedInstruction : Obligations.StepRunsTheDecodedInstruction := by
  intro s u i hc hu hh hd
  obtain ⟨t, ht⟩ := exec_next i (u.setPc (u.pc + 2))
  rw [step_instr hc hu hh hd ht, ht]
  rfl

/-! ### Fatal conditions (R161 to R166) -/

/-- Settles O23: the two instructions at the end of the stack raise their cause from the post-fetch state. -/
theorem fatalTickIsPrecise : Obligations.FatalTickIsPrecise := by
  refine fun s u hc hu hh => ⟨fun hd hsp => ?_, fun nnn hd hsp => ?_⟩
  · exact ⟨_, step_instr_fatal hc hu hh hd (exec_ret_empty hsp), rfl, rfl, rfl⟩
  · exact ⟨_, step_instr_fatal hc hu hh hd (exec_call_full nnn hsp), rfl, rfl, rfl⟩

/-- Only RET with an empty stack and CALL with a full one have `HALT` in their frame (R166). -/
theorem writesOf_halt {i : Instr} {s : State} (h : (writesOf i s).halt = true) :
    (i = .ret ∧ s.sp = 0) ∨ ∃ nnn, i = .call nnn ∧ s.sp = s.cfg.stackDepth := by
  cases i with
  | ret =>
    refine .inl ⟨rfl, ?_⟩
    by_contra hsp
    rw [writesOf_ret_ok hsp] at h
    cases h
  | call nnn =>
    refine .inr ⟨nnn, rfl, ?_⟩
    by_contra hsp
    rw [writesOf_call_ok nnn hsp] at h
    cases h
  | ldVxK x => simp only [writesOf] at h; split at h <;> cases h
  | _ => cases h

/-- Settles O24: an instruction that halts a running core writes `HALT`, so it is one of the two, and each raises
its own cause. -/
theorem onlyStackFaultsAreFatal : Obligations.OnlyStackFaultsAreFatal := by
  intro i s t hs hx ht
  have hw : (writesOf i s).halt = true := by
    by_contra hw
    have hkept : t.halt = s.halt := ((frame_of_exec hx).halt (Bool.eq_false_iff.2 hw)).1
    exact Bool.false_ne_true (hs.symm.trans (hkept.symm.trans ht))
  obtain ⟨rfl, hsp⟩ | ⟨nnn, rfl, hsp⟩ := writesOf_halt hw
  · cases hx.symm.trans (exec_ret_empty hsp)
    exact .inl ⟨rfl, hsp, rfl⟩
  · cases hx.symm.trans (exec_call_full nnn hsp)
    exact .inr ⟨nnn, rfl, hsp, rfl⟩

/-! ### A halted core (R169, R171, R176, R177) -/

/-- While the core is halted, an event other than `Reset` writes the timers and the key latch at most. -/
theorem deliver_halted {e : HostEvent} {s t : State} (hh : s.halt = true) (he : e ≠ .reset)
    (h : deliver e s = .next t) : t = { s with dt := t.dt, st := t.st, key := t.key } := by
  cases e with
  | reset => exact absurd rfl he
  | tick => cases (tick_halted hh).symm.trans h; rfl
  | frame | keyDown | keyUp => cases h; rfl

/-- A step of a halted core whose event is not `Reset` takes the event off, and writes the timers and the key
latch at most. -/
theorem step_halted {s t : State} (hh : s.halt = true) (hr : ∀ es, s.inputs ≠ .reset :: es)
    (h : step s = .next t) : t = { s with dt := t.dt, st := t.st, key := t.key, inputs := t.inputs } := by
  obtain ⟨-, ⟨-, ht⟩ | ⟨e, es, hi, hd⟩⟩ := step_cases h
  · cases (tick_halted hh).symm.trans ht; rfl
  · have he : e ≠ .reset := fun he => hr es (he ▸ hi)
    have hu : (s.withInputs es).halt = true := hh
    rw [deliver_halted hu he hd]
    rfl

/-- Settles O12: a tick of a halted core, any other event but `Reset`, and `Reset`. -/
theorem haltedCoreWaitsForReset : Obligations.HaltedCoreWaitsForReset := by
  refine ⟨fun s u hc hu hh => ?_, fun s t hh hr h => ?_, fun s t es hi h => ?_⟩
  · rw [step_atTick hc hu, tick_halted hh]
  · rw [step_halted hh hr h]
    exact ⟨hh, rfl, rfl, rfl, rfl, rfl, rfl, rfl, rfl⟩
  · obtain ⟨hc, -⟩ := step_cases h
    cases (step_deliver hc hi).symm.trans h
    rfl

/-! ### Key edges and `Frame` (R176, R177) -/

/-- The step of a key edge, of either direction, writes that key's latch alone. -/
theorem step_setKey {s : State} {e : HostEvent} {es : List HostEvent} {k : Key} {b : Bool} (hc : s.cfg.wf = true)
    (hi : s.inputs = e :: es) (he : ∀ u, deliver e u = .next (u.setKey k b)) :
    ∃ t, step s = .next t ∧ t.getKey k = b ∧ (∀ j, j ≠ k → t.getKey j = s.getKey j) ∧
      t = { s with key := t.key, inputs := es } := by
  refine ⟨(s.withInputs es).setKey k b, (step_deliver hc hi).trans (he _), ?_, fun j hj => ?_, rfl⟩
  · rw [State.getKey_setKey, if_pos rfl]
  · rw [State.getKey_setKey, if_neg hj, State.withInputs_getKey]

/-- Settles O20: both edges write the latch, a press with true and a release with false. -/
theorem keyEdgesSetTheLatch : Obligations.KeyEdgesSetTheLatch :=
  fun _ _ _ hc => ⟨fun hi => step_setKey hc hi fun _ => rfl, fun hi => step_setKey hc hi fun _ => rfl⟩

/-- Only LD DT, Vx has `DT` in its frame (R30). -/
theorem writesOf_dt {i : Instr} (h : ∀ x, i ≠ .ldDtVx x) (s : State) : (writesOf i s).dt = false := by
  cases i with
  | ldDtVx x => exact absurd rfl (h x)
  | ret | call | ldVxK => simp only [writesOf]; split <;> rfl
  | _ => rfl

/-- Only LD ST, Vx has `ST` in its frame (R30). -/
theorem writesOf_st {i : Instr} (h : ∀ x, i ≠ .ldStVx x) (s : State) : (writesOf i s).st = false := by
  cases i with
  | ldStVx x => exact absurd rfl (h x)
  | ret | call | ldVxK => simp only [writesOf]; split <;> rfl
  | _ => rfl

/-- Settles O19: `Frame` counts both timers down; an instruction other than its move has the timer outside its
frame. -/
theorem frameCountsTheTimersDown : Obligations.FrameCountsTheTimersDown := by
  refine ⟨fun s es hc hi => ?_, fun i s t hx => ?_⟩
  · exact ⟨(s.withInputs es).frame, step_deliver hc hi, countDown_toNat s.dt, countDown_toNat s.st, rfl⟩
  · have hf := frame_of_exec hx
    exact ⟨fun h => hf.dt (writesOf_dt h s), fun h => hf.st (writesOf_st h s)⟩

end Sys2Proof.Machine
end

section
/-! SUPPORT. The watchdog (R179, R180): its two ends after any tick that did not halt, and the run of a core that
stands still. -/

namespace Sys2Proof.Machine

/-! ### The watchdog step -/

theorem State.watchdogStep_counts {s : State} (h : s.nextWdCnt ≤ 100) :
    s.watchdogStep = { s with wdCnt := s.nextWdCnt, wdLast := s.pc } :=
  if_neg (Nat.not_lt.2 h)

theorem State.watchdogStep_resets {s : State} (h : 100 < s.nextWdCnt) :
    s.watchdogStep = { s with diag := .watchdogReset :: s.diag }.reinit :=
  if_pos h

/-- Settles O21: an instruction and a miss leave the watchdog's registers alone, so the watchdog step compares
with those of the state before the tick. -/
theorem watchdogCountsRepeatsAndResets : Obligations.WatchdogCountsRepeatsAndResets := by
  intro s u t hc hu hh ht
  obtain ⟨hstep, hlast, hcnt⟩ : step s = .next t.watchdogStep ∧ t.wdLast = u.wdLast ∧ t.wdCnt = u.wdCnt := by
    obtain ⟨i, hd, hx, hrun⟩ | ⟨hd, rfl⟩ := ht
    · have hf := frame_of_exec hx
      exact ⟨State.endTick_running hrun ▸ step_instr hc hu hh hd hx, hf.wdLast, hf.wdCnt⟩
    · have hrun : (u.advancePc.emit (.decodeMiss u.fetch u.pc)).halt = false := hh
      have hmiss := (step_atTick hc hu).trans (tick_miss hh hd)
      exact ⟨State.endTick_running hrun ▸ hmiss, rfl, rfl⟩
  refine ⟨t.nextWdCnt, ?_, fun hle => ?_, fun hgt => ?_⟩
  · rw [State.nextWdCnt, hlast, hcnt]
  · rw [hstep, State.watchdogStep_counts hle]
  · rw [hstep, State.watchdogStep_resets hgt]

/-! ### A core that stands still (R180, R197) -/

/-- The rewind of a key wait undoes the advance of its fetch (R152). -/
theorem State.rewindPc_advancePc (s : State) : s.advancePc.rewindPc = s := by
  have hpc : s.pc + 2 - 2 = s.pc := BitVec.add_sub_cancel s.pc 2
  rw [State.rewindPc, State.advancePc_pc, hpc]
  rfl

/-- A running core with nothing pending, at a jump to itself or at a key wait with no key down, that ended the
previous tick at the same `PC`. -/
structure State.Stalled (s : State) : Prop where
  cfg : s.cfg.wf = true
  inputs : s.inputs = []
  running : s.halt = false
  wdLast : s.wdLast = s.pc
  loop : decode s.fetch = .instr (.jp s.pc) ∨ ∃ x, decode s.fetch = .instr (.ldVxK x) ∧ ∀ k, s.getKey k = false

namespace State.Stalled

variable {s : State}

/-- The repeat counter plays no part in the stall. -/
theorem with_wdCnt (h : s.Stalled) (n : Nat) : { s with wdCnt := n }.Stalled := { h with }

/-- The instruction leads back to the state before its fetch. -/
theorem exec_returns (h : s.Stalled) : ∃ i, decode s.fetch = .instr i ∧ exec i s.advancePc = .next s := by
  obtain hd | ⟨x, hd, hkeys⟩ := h.loop
  · exact ⟨_, hd, rfl⟩
  · have hnone : s.advancePc.firstKey = none := State.firstKey_none.2 hkeys
    exact ⟨_, hd, by rw [exec_ldVxK_none x hnone, s.rewindPc_advancePc]⟩

/-- So a step is the watchdog step alone. -/
theorem step_eq (h : s.Stalled) : step s = .next s.watchdogStep := by
  have hu : s.atTick = some s := by rw [State.atTick, h.inputs]
  obtain ⟨i, hd, hx⟩ := h.exec_returns
  rw [step_instr h.cfg hu h.running hd hx, State.endTick_running h.running]

theorem nextWdCnt_eq (h : s.Stalled) : s.nextWdCnt = s.wdCnt + 1 := if_pos h.wdLast.symm

theorem step_counts (h : s.Stalled) (hlt : s.wdCnt < 100) : step s = .next { s with wdCnt := s.wdCnt + 1 } := by
  have hle : s.nextWdCnt ≤ 100 := h.nextWdCnt_eq ▸ hlt
  rw [h.step_eq, State.watchdogStep_counts hle, h.nextWdCnt_eq, ← h.wdLast]

theorem step_resets (h : s.Stalled) (hge : 100 ≤ s.wdCnt) :
    step s = .next { s with diag := .watchdogReset :: s.diag }.reinit := by
  have hgt : 100 < s.nextWdCnt := h.nextWdCnt_eq ▸ Nat.lt_succ_of_le hge
  rw [h.step_eq, State.watchdogStep_resets hgt]

/-- The first `m` steps of a run only count, while the counter stays within the threshold. -/
theorem run_add (h : s.Stalled) (k m : Nat) (hm : s.wdCnt + m ≤ 100) :
    Host.Core.run Sys2Proof.core (k + m) s = Host.Core.run Sys2Proof.core k { s with wdCnt := s.wdCnt + m } := by
  induction m generalizing s with
  | zero => rfl
  | succ m ih =>
    have hcount : s.wdCnt + 1 + m = s.wdCnt + (m + 1) := by omega
    have hlt : s.wdCnt < 100 := by omega
    rw [← Nat.add_assoc, core_run_succ (h.step_counts hlt), ih (h.with_wdCnt _) (hcount ▸ hm), hcount]

end State.Stalled

/-- Settles O22: the run counts up to 100, and the step after that resets. -/
theorem stalledCoreIsReset : Obligations.StalledCoreIsReset := by
  intro s hc hi hh hlast hcnt hloop
  have h : s.Stalled := ⟨hc, hi, hh, hlast, hloop⟩
  refine ⟨fun m hm => ?_, ?_⟩
  · have hrun := h.run_add 0 m (by omega)
    rwa [Nat.zero_add] at hrun
  · have hsteps : 101 - s.wdCnt = 1 + (100 - s.wdCnt) := by omega
    have hge : 100 ≤ s.wdCnt + (100 - s.wdCnt) := by omega
    rw [hsteps, h.run_add 1 _ (by omega), core_run_succ ((h.with_wdCnt _).step_resets hge)]
    rfl

end Sys2Proof.Machine
end

section
/-! SUPPORT. The host event `Reset` (R190, R191): what it leaves in memory and in the other fields. -/

namespace Sys2Proof

/-- The bound of R8 on the image. -/
theorem Config.rom_length_le {c : Config} (h : c.wf = true) : c.rom.length ≤ 3584 := by
  simp only [Config.wf, Bool.and_eq_true] at h
  obtain ⟨⟨hrom, -⟩, -⟩ := h
  exact of_decide_eq_true hrom

end Sys2Proof

namespace Sys2Proof.Machine

/-- The image lies at 0x200 and up (R58, R65). -/
theorem resetByte_rom (c : Config) (j : Nat) : resetByte c (0x200 + j) = c.rom.getD j 0 := by
  rw [resetByte, if_pos (by omega), Nat.add_sub_cancel_left]

theorem State.reinit_memRead_of_lt (s : State) {a : Nat} (ha : a < 4096) :
    s.reinit.memRead a = resetByte s.cfg a := by
  rw [State.reinit_memRead, Nat.mod_eq_of_lt ha]

/-- Settles O18: the step is `reinit` of the state without the event; an image that R8 admits ends within memory,
so that no address of it wraps. -/
theorem resetEventReinitialises : Obligations.ResetEventReinitialises := by
  intro s es hc hi
  have hrom := Config.rom_length_le hc
  refine ⟨(s.withInputs es).reinit, step_deliver hc hi, State.reinit_getV _, rfl, rfl, rfl, rfl, rfl,
    fun j hj => ?font, fun j hj => ?rom, fun a ha hf hr => ?cleared, State.pixGet_reinit _,
    rfl, rfl, rfl, rfl, rfl, rfl, rfl, rfl, rfl, rfl, rfl⟩
  case font => rw [State.reinit_memRead_of_lt _ (by omega), resetByte_font _ hj, State.withInputs_cfg]
  case rom => rw [State.reinit_memRead_of_lt _ (by omega), resetByte_rom, State.withInputs_cfg]
  case cleared => rw [State.reinit_memRead_of_lt _ ha, State.withInputs_cfg, resetByte_cleared _ hf hr]

end Sys2Proof.Machine
end
